-- ==== Sys2Proof/Word.lean ====
section
/-! DEFINITION. The word types of the block and the index types of its two register files. -/

namespace Sys2Proof

/-- A byte, the unit the memory is addressed in (20_memory.md R100). -/
abbrev Byte := BitVec 8

/-- A halfword (20_memory.md R101). -/
abbrev Half := BitVec 16

/-- A 32-bit word: registers, addresses, FP slots (00_scope.md R6, R8, R9). -/
abbrev Word := BitVec 32

/-- The 64-bit pattern of a double (10_state.md R51). -/
abbrev DWord := BitVec 64

/-- The index of a general register, 0 to 31 (00_scope.md R7). -/
abbrev Gpr := Fin 32

/-- The index of a floating-point slot, 0 to 31 (00_scope.md R8). -/
abbrev Fpr := Fin 32

end Sys2Proof
end

