-- ==== Sys2Proof/Syntax.lean ====
section
/-! DEFINITION. The decoded instructions: one constructor per row of spec/opcode_table.json
(30_encoding.md R140, R166), operands in the order of the row's assembler syntax. A register field
is an index 0 to 31 and an immediate keeps its bits (R151, R152). The fields the block does not
read (the `code` of teq, break and syscall, the ignored `rt` of clz, R159 and R160) are kept, so
that an instruction and its word determine each other (log 26). -/

namespace Sys2Proof

/-- A decoded instruction (30_encoding.md R140). -/
inductive Instr where
  -- 40_integer.md, integer ALU
  /-- `add rd, rs, rt` (R205). -/
  | add (rd rs rt : Gpr)
  /-- `sub rd, rs, rt` (R206). -/
  | sub (rd rs rt : Gpr)
  /-- `and rd, rs, rt` (R207). -/
  | and (rd rs rt : Gpr)
  /-- `or rd, rs, rt` (R208). -/
  | or (rd rs rt : Gpr)
  /-- `xor rd, rs, rt` (R209). -/
  | xor (rd rs rt : Gpr)
  /-- `nor rd, rs, rt` (R210). -/
  | nor (rd rs rt : Gpr)
  /-- `slt rd, rs, rt` (R211). -/
  | slt (rd rs rt : Gpr)
  /-- `sltu rd, rs, rt` (R212). -/
  | sltu (rd rs rt : Gpr)
  /-- `addi rt, rs, imm16` (R213). -/
  | addi (rt rs : Gpr) (imm : BitVec 16)
  /-- `slti rt, rs, imm16` (R214). -/
  | slti (rt rs : Gpr) (imm : BitVec 16)
  /-- `sltiu rt, rs, imm16` (R215). -/
  | sltiu (rt rs : Gpr) (imm : BitVec 16)
  /-- `andi rt, rs, imm16` (R216). -/
  | andi (rt rs : Gpr) (imm : BitVec 16)
  /-- `ori rt, rs, imm16` (R217). -/
  | ori (rt rs : Gpr) (imm : BitVec 16)
  /-- `xori rt, rs, imm16` (R218). -/
  | xori (rt rs : Gpr) (imm : BitVec 16)
  /-- `sll rd, rt, sa` (R219). -/
  | sll (rd rt : Gpr) (sa : Fin 32)
  /-- `srl rd, rt, sa` (R220). -/
  | srl (rd rt : Gpr) (sa : Fin 32)
  /-- `sra rd, rt, sa` (R221). -/
  | sra (rd rt : Gpr) (sa : Fin 32)
  /-- `sllv rd, rt, rs` (R222). -/
  | sllv (rd rt rs : Gpr)
  /-- `srlv rd, rt, rs` (R223). -/
  | srlv (rd rt rs : Gpr)
  /-- `srav rd, rt, rs` (R224). -/
  | srav (rd rt rs : Gpr)
  /-- `ror rd, rt, sa` (R225). -/
  | ror (rd rt : Gpr) (sa : Fin 32)
  /-- `rorr rd, rt, rs` (R226). -/
  | rorr (rd rt rs : Gpr)
  /-- `mul rd, rh, rs, rt` (R227). -/
  | mul (rd rh rs rt : Gpr)
  /-- `mulu rd, rh, rs, rt` (R228). -/
  | mulu (rd rh rs rt : Gpr)
  /-- `div rd, rh, rs, rt` (R229). -/
  | div (rd rh rs rt : Gpr)
  /-- `divu rd, rh, rs, rt` (R230). -/
  | divu (rd rh rs rt : Gpr)
  /-- `clz rd, rs` (R231). -/
  | clz (rd rs : Gpr) (ign : BitVec 5)
  /-- `seb rd, rt` (R232). -/
  | seb (rd rt : Gpr)
  /-- `seh rd, rt` (R233). -/
  | seh (rd rt : Gpr)
  /-- `ext rt, rs, pos, size` (R234). -/
  | ext (rt rs : Gpr) (pos size : Nat)
  /-- `movz rd, rs, rt` (R235). -/
  | movz (rd rs rt : Gpr)
  /-- `movn rd, rs, rt` (R236). -/
  | movn (rd rs rt : Gpr)
  /-- `movt rd, rs` (R237). -/
  | movt (rd rs : Gpr)
  /-- `movf rd, rs` (R238). -/
  | movf (rd rs : Gpr)
  -- 41_control_flow.md, control transfer
  /-- `jump target` (R267). -/
  | jump (imm : BitVec 26)
  /-- `call target` (R268). -/
  | call (imm : BitVec 26)
  /-- `jumpr rs` (R269). -/
  | jumpr (rs : Gpr)
  /-- `callr rs` (R270). -/
  | callr (rs : Gpr)
  /-- `jeq rs, rt, offset` (R271). -/
  | jeq (rs rt : Gpr) (imm : BitVec 16)
  /-- `jne rs, rt, offset` (R272). -/
  | jne (rs rt : Gpr) (imm : BitVec 16)
  /-- `jlez rs, offset` (R273). -/
  | jlez (rs : Gpr) (imm : BitVec 16)
  /-- `jgtz rs, offset` (R274). -/
  | jgtz (rs : Gpr) (imm : BitVec 16)
  /-- `jltz rs, offset` (R275). -/
  | jltz (rs : Gpr) (imm : BitVec 16)
  /-- `jgez rs, offset` (R276). -/
  | jgez (rs : Gpr) (imm : BitVec 16)
  /-- `bc1t offset` (R277). -/
  | bc1t (imm : BitVec 16)
  /-- `bc1f offset` (R278). -/
  | bc1f (imm : BitVec 16)
  -- 42_compact.md, the compact family
  /-- `rcall offset` (R291). -/
  | rcall (imm : BitVec 16)
  /-- `ijmphi imm20` (R292). -/
  | ijmphi (imm : BitVec 20)
  /-- `ijmp rs, imm12` (R293). -/
  | ijmp (rs : Gpr) (imm : BitVec 12)
  /-- `ldi rt, imm14` (R294). -/
  | ldi (rt : Gpr) (imm : BitVec 14)
  /-- `ldihi imm18` (R295). -/
  | ldihi (imm : BitVec 18)
  -- 43_trap_system.md, trap and environment
  /-- `teq rs, rt` (R310). -/
  | teq (rs rt : Gpr) (code : BitVec 10)
  /-- `break` (R311). -/
  | brk (code : BitVec 20)
  /-- `syscall` (R312). -/
  | syscall (code : BitVec 20)
  -- 44_fp_arith.md, floating-point arithmetic
  /-- `add.s fd, fs, ft` (R336). -/
  | addS (fd fs ft : Fpr)
  /-- `add.d fd, fs, ft` (R337). -/
  | addD (fd fs ft : Fpr)
  /-- `sub.s fd, fs, ft` (R338). -/
  | subS (fd fs ft : Fpr)
  /-- `sub.d fd, fs, ft` (R339). -/
  | subD (fd fs ft : Fpr)
  /-- `mul.s fd, fs, ft` (R340). -/
  | mulS (fd fs ft : Fpr)
  /-- `mul.d fd, fs, ft` (R341). -/
  | mulD (fd fs ft : Fpr)
  /-- `div.s fd, fs, ft` (R342). -/
  | divS (fd fs ft : Fpr)
  /-- `div.d fd, fs, ft` (R343). -/
  | divD (fd fs ft : Fpr)
  /-- `sqrt.s fd, fs` (R344). -/
  | sqrtS (fd fs : Fpr)
  /-- `sqrt.d fd, fs` (R345). -/
  | sqrtD (fd fs : Fpr)
  /-- `abs.s fd, fs` (R346). -/
  | absS (fd fs : Fpr)
  /-- `abs.d fd, fs` (R347). -/
  | absD (fd fs : Fpr)
  /-- `neg.s fd, fs` (R348). -/
  | negS (fd fs : Fpr)
  /-- `neg.d fd, fs` (R349). -/
  | negD (fd fs : Fpr)
  /-- `mov.s fd, fs` (R350). -/
  | movS (fd fs : Fpr)
  /-- `mov.d fd, fs` (R351). -/
  | movD (fd fs : Fpr)
  /-- `madd.s fd, fr, fs, ft` (R352). -/
  | maddS (fd fr fs ft : Fpr)
  /-- `madd.d fd, fr, fs, ft` (R353). -/
  | maddD (fd fr fs ft : Fpr)
  /-- `msub.s fd, fr, fs, ft` (R354). -/
  | msubS (fd fr fs ft : Fpr)
  /-- `msub.d fd, fr, fs, ft` (R355). -/
  | msubD (fd fr fs ft : Fpr)
  -- 45_fp_compare_convert.md, comparisons, conditional moves, conversions, transfers
  /-- `c.eq.s fs, ft` (R381). -/
  | cEqS (fs ft : Fpr)
  /-- `c.eq.d fs, ft` (R382). -/
  | cEqD (fs ft : Fpr)
  /-- `c.ole.s fs, ft` (R383). -/
  | cOleS (fs ft : Fpr)
  /-- `c.ole.d fs, ft` (R384). -/
  | cOleD (fs ft : Fpr)
  /-- `c.olt.s fs, ft` (R385). -/
  | cOltS (fs ft : Fpr)
  /-- `c.olt.d fs, ft` (R386). -/
  | cOltD (fs ft : Fpr)
  /-- `c.ueq.s fs, ft` (R387). -/
  | cUeqS (fs ft : Fpr)
  /-- `c.ueq.d fs, ft` (R388). -/
  | cUeqD (fs ft : Fpr)
  /-- `c.ule.s fs, ft` (R389). -/
  | cUleS (fs ft : Fpr)
  /-- `c.ule.d fs, ft` (R390). -/
  | cUleD (fs ft : Fpr)
  /-- `c.ult.s fs, ft` (R391). -/
  | cUltS (fs ft : Fpr)
  /-- `c.ult.d fs, ft` (R392). -/
  | cUltD (fs ft : Fpr)
  /-- `c.un.s fs, ft` (R393). -/
  | cUnS (fs ft : Fpr)
  /-- `c.un.d fs, ft` (R394). -/
  | cUnD (fs ft : Fpr)
  /-- `movz.s fd, fs, rt` (R395). -/
  | movzS (fd fs : Fpr) (rt : Gpr)
  /-- `movz.d fd, fs, rt` (R396). -/
  | movzD (fd fs : Fpr) (rt : Gpr)
  /-- `movn.s fd, fs, rt` (R397). -/
  | movnS (fd fs : Fpr) (rt : Gpr)
  /-- `movn.d fd, fs, rt` (R398). -/
  | movnD (fd fs : Fpr) (rt : Gpr)
  /-- `movt.s fd, fs` (R399). -/
  | movtS (fd fs : Fpr)
  /-- `movt.d fd, fs` (R400). -/
  | movtD (fd fs : Fpr)
  /-- `movf.s fd, fs` (R401). -/
  | movfS (fd fs : Fpr)
  /-- `movf.d fd, fs` (R402). -/
  | movfD (fd fs : Fpr)
  /-- `cvt.d.s fd, fs` (R404). -/
  | cvtDS (fd fs : Fpr)
  /-- `cvt.s.d fd, fs` (R405). -/
  | cvtSD (fd fs : Fpr)
  /-- `cvt.s.w fd, fs` (R406). -/
  | cvtSW (fd fs : Fpr)
  /-- `cvt.d.w fd, fs` (R407). -/
  | cvtDW (fd fs : Fpr)
  /-- `cvt.w.s fd, fs` (R408). -/
  | cvtWS (fd fs : Fpr)
  /-- `cvt.w.d fd, fs` (R409). -/
  | cvtWD (fd fs : Fpr)
  /-- `round.w.s fd, fs` (R410). -/
  | roundWS (fd fs : Fpr)
  /-- `round.w.d fd, fs` (R411). -/
  | roundWD (fd fs : Fpr)
  /-- `ceil.w.s fd, fs` (R412). -/
  | ceilWS (fd fs : Fpr)
  /-- `ceil.w.d fd, fs` (R413). -/
  | ceilWD (fd fs : Fpr)
  /-- `floor.w.s fd, fs` (R414). -/
  | floorWS (fd fs : Fpr)
  /-- `floor.w.d fd, fs` (R415). -/
  | floorWD (fd fs : Fpr)
  /-- `trunc.w.s fd, fs` (R416). -/
  | truncWS (fd fs : Fpr)
  /-- `trunc.w.d fd, fs` (R417). -/
  | truncWD (fd fs : Fpr)
  /-- `mfc1 rt, fs` (R418). -/
  | mfc1 (rt : Gpr) (fs : Fpr)
  /-- `mtc1 rt, fs` (R419). -/
  | mtc1 (rt : Gpr) (fs : Fpr)
  /-- `mfhc1 rt, fs` (R420). -/
  | mfhc1 (rt : Gpr) (fs : Fpr)
  /-- `mflc1 rt, fs` (R421). -/
  | mflc1 (rt : Gpr) (fs : Fpr)
  /-- `mthc1 rt, fs` (R422). -/
  | mthc1 (rt : Gpr) (fs : Fpr)
  /-- `mtlc1 rt, fs` (R423). -/
  | mtlc1 (rt : Gpr) (fs : Fpr)
  -- 46_loadstore.md, loads and stores
  /-- `ldb rt, offset(rs)` (R442). -/
  | ldb (rt : Gpr) (imm : BitVec 16) (rs : Gpr)
  /-- `ldbu rt, offset(rs)` (R443). -/
  | ldbu (rt : Gpr) (imm : BitVec 16) (rs : Gpr)
  /-- `ldh rt, offset(rs)` (R444). -/
  | ldh (rt : Gpr) (imm : BitVec 16) (rs : Gpr)
  /-- `ldhu rt, offset(rs)` (R445). -/
  | ldhu (rt : Gpr) (imm : BitVec 16) (rs : Gpr)
  /-- `ldw rt, offset(rs)` (R446). -/
  | ldw (rt : Gpr) (imm : BitVec 16) (rs : Gpr)
  /-- `ldwl rt, offset(rs)` (R447). -/
  | ldwl (rt : Gpr) (imm : BitVec 16) (rs : Gpr)
  /-- `ldwr rt, offset(rs)` (R448). -/
  | ldwr (rt : Gpr) (imm : BitVec 16) (rs : Gpr)
  /-- `stb rt, offset(rs)` (R449). -/
  | stb (rt : Gpr) (imm : BitVec 16) (rs : Gpr)
  /-- `sth rt, offset(rs)` (R450). -/
  | sth (rt : Gpr) (imm : BitVec 16) (rs : Gpr)
  /-- `stw rt, offset(rs)` (R451). -/
  | stw (rt : Gpr) (imm : BitVec 16) (rs : Gpr)
  /-- `stwl rt, offset(rs)` (R452). -/
  | stwl (rt : Gpr) (imm : BitVec 16) (rs : Gpr)
  /-- `stwr rt, offset(rs)` (R453). -/
  | stwr (rt : Gpr) (imm : BitVec 16) (rs : Gpr)
  /-- `ll rt, offset(rs)` (R454). -/
  | ll (rt : Gpr) (imm : BitVec 16) (rs : Gpr)
  /-- `sc rt, offset(rs)` (R455). -/
  | sc (rt : Gpr) (imm : BitVec 16) (rs : Gpr)
  /-- `lwc1 ft, offset(rs)` (R456). -/
  | lwc1 (ft : Fpr) (imm : BitVec 16) (rs : Gpr)
  /-- `ldc1 ft, offset(rs)` (R457). -/
  | ldc1 (ft : Fpr) (imm : BitVec 16) (rs : Gpr)
  /-- `swc1 ft, offset(rs)` (R458). -/
  | swc1 (ft : Fpr) (imm : BitVec 16) (rs : Gpr)
  /-- `sdc1 ft, offset(rs)` (R459). -/
  | sdc1 (ft : Fpr) (imm : BitVec 16) (rs : Gpr)
  deriving DecidableEq, Repr

end Sys2Proof
end

