-- ==== Sys2Proof/Decode.lean ====
section
/-! DEFINITION. The reference encoding (30_encoding.md, decision D1): the table of its 134 rows, the
decoder (total on any word and on any bytes, refusing by name) and, after it, the encoder, written
from the formats of 30_encoding.md section 2. -/

namespace Sys2Proof

/-- Why bytes are no instruction. -/
inductive DecodeError where
  /-- The word matches no row of the table (30_encoding.md R157). -/
  | reservedInstruction (word : Word)
  /-- Fewer than the four bytes of an instruction (30_encoding.md R141). -/
  | truncated
  deriving DecidableEq, Repr

/-- A row of the opcode table: the word `w` is the row's instruction iff `w &&& mask = value`
(30_encoding.md R166, which calls `value` match), and `build` reads its operand fields. -/
structure Row where
  mask  : Word
  value : Word
  build : Word → Instr

/-- Whether a word is this row's instruction (30_encoding.md R166). -/
def Row.Matches (r : Row) (w : Word) : Bool := w &&& r.mask == r.value

/-- The register index in the five bits of `w` from bit `lo` up (30_encoding.md R152). -/
def regAt (w : Word) (lo : Nat) : Fin 32 := (w.extractLsb' lo 5).toFin

/-- The rows of 40_integer.md. -/
def integerRows : List Row :=
  [ ⟨0xFC0007FF#32, 0x00000020#32, fun w => .add (regAt w 11) (regAt w 21) (regAt w 16)⟩  -- add
  , ⟨0xFC0007FF#32, 0x00000022#32, fun w => .sub (regAt w 11) (regAt w 21) (regAt w 16)⟩  -- sub
  , ⟨0xFC0007FF#32, 0x00000024#32, fun w => .and (regAt w 11) (regAt w 21) (regAt w 16)⟩  -- and
  , ⟨0xFC0007FF#32, 0x00000025#32, fun w => .or (regAt w 11) (regAt w 21) (regAt w 16)⟩  -- or
  , ⟨0xFC0007FF#32, 0x00000026#32, fun w => .xor (regAt w 11) (regAt w 21) (regAt w 16)⟩  -- xor
  , ⟨0xFC0007FF#32, 0x00000027#32, fun w => .nor (regAt w 11) (regAt w 21) (regAt w 16)⟩  -- nor
  , ⟨0xFC0007FF#32, 0x0000002A#32, fun w => .slt (regAt w 11) (regAt w 21) (regAt w 16)⟩  -- slt
  , ⟨0xFC0007FF#32, 0x0000002B#32, fun w => .sltu (regAt w 11) (regAt w 21) (regAt w 16)⟩  -- sltu
  , ⟨0xFC000000#32, 0x20000000#32, fun w => .addi (regAt w 16) (regAt w 21) (w.extractLsb' 0 16)⟩  -- addi
  , ⟨0xFC000000#32, 0x28000000#32, fun w => .slti (regAt w 16) (regAt w 21) (w.extractLsb' 0 16)⟩  -- slti
  , ⟨0xFC000000#32, 0x2C000000#32, fun w => .sltiu (regAt w 16) (regAt w 21) (w.extractLsb' 0 16)⟩  -- sltiu
  , ⟨0xFC000000#32, 0x30000000#32, fun w => .andi (regAt w 16) (regAt w 21) (w.extractLsb' 0 16)⟩  -- andi
  , ⟨0xFC000000#32, 0x34000000#32, fun w => .ori (regAt w 16) (regAt w 21) (w.extractLsb' 0 16)⟩  -- ori
  , ⟨0xFC000000#32, 0x38000000#32, fun w => .xori (regAt w 16) (regAt w 21) (w.extractLsb' 0 16)⟩  -- xori
  , ⟨0xFFE0003F#32, 0x00000000#32, fun w => .sll (regAt w 11) (regAt w 16) (regAt w 6)⟩  -- sll
  , ⟨0xFFE0003F#32, 0x00000002#32, fun w => .srl (regAt w 11) (regAt w 16) (regAt w 6)⟩  -- srl
  , ⟨0xFFE0003F#32, 0x00000003#32, fun w => .sra (regAt w 11) (regAt w 16) (regAt w 6)⟩  -- sra
  , ⟨0xFC0007FF#32, 0x00000004#32, fun w => .sllv (regAt w 11) (regAt w 16) (regAt w 21)⟩  -- sllv
  , ⟨0xFC0007FF#32, 0x00000006#32, fun w => .srlv (regAt w 11) (regAt w 16) (regAt w 21)⟩  -- srlv
  , ⟨0xFC0007FF#32, 0x00000007#32, fun w => .srav (regAt w 11) (regAt w 16) (regAt w 21)⟩  -- srav
  , ⟨0xFFE0003F#32, 0x00200002#32, fun w => .ror (regAt w 11) (regAt w 16) (regAt w 6)⟩  -- ror
  , ⟨0xFC0007FF#32, 0x00000046#32, fun w => .rorr (regAt w 11) (regAt w 16) (regAt w 21)⟩  -- rorr
  , ⟨0xFC00003F#32, 0x00000018#32, fun w => .mul (regAt w 11) (regAt w 6) (regAt w 21) (regAt w 16)⟩  -- mul
  , ⟨0xFC00003F#32, 0x00000019#32, fun w => .mulu (regAt w 11) (regAt w 6) (regAt w 21) (regAt w 16)⟩  -- mulu
  , ⟨0xFC00003F#32, 0x0000001A#32, fun w => .div (regAt w 11) (regAt w 6) (regAt w 21) (regAt w 16)⟩  -- div
  , ⟨0xFC00003F#32, 0x0000001B#32, fun w => .divu (regAt w 11) (regAt w 6) (regAt w 21) (regAt w 16)⟩  -- divu
  , ⟨0xFC0007FF#32, 0x70000020#32, fun w => .clz (regAt w 11) (regAt w 21) (w.extractLsb' 16 5)⟩  -- clz
  , ⟨0xFFE007FF#32, 0x7C000420#32, fun w => .seb (regAt w 11) (regAt w 16)⟩  -- seb
  , ⟨0xFFE007FF#32, 0x7C000620#32, fun w => .seh (regAt w 11) (regAt w 16)⟩  -- seh
  , ⟨0xFC00003F#32, 0x7C000000#32, fun w => .ext (regAt w 16) (regAt w 21) (w.extractLsb' 6 5).toNat ((w.extractLsb' 11 5).toNat + 1)⟩  -- ext
  , ⟨0xFC0007FF#32, 0x0000000A#32, fun w => .movz (regAt w 11) (regAt w 21) (regAt w 16)⟩  -- movz
  , ⟨0xFC0007FF#32, 0x0000000B#32, fun w => .movn (regAt w 11) (regAt w 21) (regAt w 16)⟩  -- movn
  , ⟨0xFC1F07FF#32, 0x00010001#32, fun w => .movt (regAt w 11) (regAt w 21)⟩  -- movt
  , ⟨0xFC1F07FF#32, 0x00000001#32, fun w => .movf (regAt w 11) (regAt w 21)⟩  -- movf
  ]

/-- The rows of 41_control_flow.md. -/
def controlRows : List Row :=
  [ ⟨0xFC000000#32, 0x08000000#32, fun w => .jump (w.extractLsb' 0 26)⟩  -- jump
  , ⟨0xFC000000#32, 0x0C000000#32, fun w => .call (w.extractLsb' 0 26)⟩  -- call
  , ⟨0xFC1FFFFF#32, 0x00000008#32, fun w => .jumpr (regAt w 21)⟩  -- jumpr
  , ⟨0xFC1FFFFF#32, 0x0000F809#32, fun w => .callr (regAt w 21)⟩  -- callr
  , ⟨0xFC000000#32, 0x10000000#32, fun w => .jeq (regAt w 21) (regAt w 16) (w.extractLsb' 0 16)⟩  -- jeq
  , ⟨0xFC000000#32, 0x14000000#32, fun w => .jne (regAt w 21) (regAt w 16) (w.extractLsb' 0 16)⟩  -- jne
  , ⟨0xFC1F0000#32, 0x18000000#32, fun w => .jlez (regAt w 21) (w.extractLsb' 0 16)⟩  -- jlez
  , ⟨0xFC1F0000#32, 0x1C000000#32, fun w => .jgtz (regAt w 21) (w.extractLsb' 0 16)⟩  -- jgtz
  , ⟨0xFC1F0000#32, 0x04000000#32, fun w => .jltz (regAt w 21) (w.extractLsb' 0 16)⟩  -- jltz
  , ⟨0xFC1F0000#32, 0x04010000#32, fun w => .jgez (regAt w 21) (w.extractLsb' 0 16)⟩  -- jgez
  , ⟨0xFFFF0000#32, 0x45010000#32, fun w => .bc1t (w.extractLsb' 0 16)⟩  -- bc1t
  , ⟨0xFFFF0000#32, 0x45000000#32, fun w => .bc1f (w.extractLsb' 0 16)⟩  -- bc1f
  ]

/-- The rows of 42_compact.md. -/
def compactRows : List Row :=
  [ ⟨0xFFFF0000#32, 0x60000000#32, fun w => .rcall (w.extractLsb' 0 16)⟩  -- rcall
  , ⟨0xFFF00000#32, 0x64000000#32, fun w => .ijmphi (w.extractLsb' 0 20)⟩  -- ijmphi
  , ⟨0xFC1FF000#32, 0x68000000#32, fun w => .ijmp (regAt w 21) (w.extractLsb' 0 12)⟩  -- ijmp
  , ⟨0xFFE0C000#32, 0x78000000#32, fun w => .ldi (regAt w 16) (w.extractLsb' 0 14)⟩  -- ldi
  , ⟨0xFFFC0000#32, 0x6C000000#32, fun w => .ldihi (w.extractLsb' 0 18)⟩  -- ldihi
  ]

/-- The rows of 43_trap_system.md. -/
def trapRows : List Row :=
  [ ⟨0xFC00003F#32, 0x00000034#32, fun w => .teq (regAt w 21) (regAt w 16) (w.extractLsb' 6 10)⟩  -- teq
  , ⟨0xFC00003F#32, 0x0000000D#32, fun w => .brk (w.extractLsb' 6 20)⟩  -- break
  , ⟨0xFC00003F#32, 0x0000000C#32, fun w => .syscall (w.extractLsb' 6 20)⟩  -- syscall
  ]

/-- The rows of 44_fp_arith.md. -/
def fpArithRows : List Row :=
  [ ⟨0xFFE0003F#32, 0x46000000#32, fun w => .addS (regAt w 6) (regAt w 11) (regAt w 16)⟩  -- add.s
  , ⟨0xFFE0003F#32, 0x46200000#32, fun w => .addD (regAt w 6) (regAt w 11) (regAt w 16)⟩  -- add.d
  , ⟨0xFFE0003F#32, 0x46000001#32, fun w => .subS (regAt w 6) (regAt w 11) (regAt w 16)⟩  -- sub.s
  , ⟨0xFFE0003F#32, 0x46200001#32, fun w => .subD (regAt w 6) (regAt w 11) (regAt w 16)⟩  -- sub.d
  , ⟨0xFFE0003F#32, 0x46000002#32, fun w => .mulS (regAt w 6) (regAt w 11) (regAt w 16)⟩  -- mul.s
  , ⟨0xFFE0003F#32, 0x46200002#32, fun w => .mulD (regAt w 6) (regAt w 11) (regAt w 16)⟩  -- mul.d
  , ⟨0xFFE0003F#32, 0x46000003#32, fun w => .divS (regAt w 6) (regAt w 11) (regAt w 16)⟩  -- div.s
  , ⟨0xFFE0003F#32, 0x46200003#32, fun w => .divD (regAt w 6) (regAt w 11) (regAt w 16)⟩  -- div.d
  , ⟨0xFFFF003F#32, 0x46000004#32, fun w => .sqrtS (regAt w 6) (regAt w 11)⟩  -- sqrt.s
  , ⟨0xFFFF003F#32, 0x46200004#32, fun w => .sqrtD (regAt w 6) (regAt w 11)⟩  -- sqrt.d
  , ⟨0xFFFF003F#32, 0x46000005#32, fun w => .absS (regAt w 6) (regAt w 11)⟩  -- abs.s
  , ⟨0xFFFF003F#32, 0x46200005#32, fun w => .absD (regAt w 6) (regAt w 11)⟩  -- abs.d
  , ⟨0xFFFF003F#32, 0x46000007#32, fun w => .negS (regAt w 6) (regAt w 11)⟩  -- neg.s
  , ⟨0xFFFF003F#32, 0x46200007#32, fun w => .negD (regAt w 6) (regAt w 11)⟩  -- neg.d
  , ⟨0xFFFF003F#32, 0x46000006#32, fun w => .movS (regAt w 6) (regAt w 11)⟩  -- mov.s
  , ⟨0xFFFF003F#32, 0x46200006#32, fun w => .movD (regAt w 6) (regAt w 11)⟩  -- mov.d
  , ⟨0xFC00003F#32, 0x4C000020#32, fun w => .maddS (regAt w 6) (regAt w 21) (regAt w 11) (regAt w 16)⟩  -- madd.s
  , ⟨0xFC00003F#32, 0x4C000021#32, fun w => .maddD (regAt w 6) (regAt w 21) (regAt w 11) (regAt w 16)⟩  -- madd.d
  , ⟨0xFC00003F#32, 0x4C000028#32, fun w => .msubS (regAt w 6) (regAt w 21) (regAt w 11) (regAt w 16)⟩  -- msub.s
  , ⟨0xFC00003F#32, 0x4C000029#32, fun w => .msubD (regAt w 6) (regAt w 21) (regAt w 11) (regAt w 16)⟩  -- msub.d
  ]

/-- The rows of 45_fp_compare_convert.md. -/
def fpMoveRowsA : List Row :=
  [ ⟨0xFFE007FF#32, 0x46000032#32, fun w => .cEqS (regAt w 11) (regAt w 16)⟩  -- c.eq.s
  , ⟨0xFFE007FF#32, 0x46200032#32, fun w => .cEqD (regAt w 11) (regAt w 16)⟩  -- c.eq.d
  , ⟨0xFFE007FF#32, 0x46000036#32, fun w => .cOleS (regAt w 11) (regAt w 16)⟩  -- c.ole.s
  , ⟨0xFFE007FF#32, 0x46200036#32, fun w => .cOleD (regAt w 11) (regAt w 16)⟩  -- c.ole.d
  , ⟨0xFFE007FF#32, 0x46000034#32, fun w => .cOltS (regAt w 11) (regAt w 16)⟩  -- c.olt.s
  , ⟨0xFFE007FF#32, 0x46200034#32, fun w => .cOltD (regAt w 11) (regAt w 16)⟩  -- c.olt.d
  , ⟨0xFFE007FF#32, 0x46000033#32, fun w => .cUeqS (regAt w 11) (regAt w 16)⟩  -- c.ueq.s
  , ⟨0xFFE007FF#32, 0x46200033#32, fun w => .cUeqD (regAt w 11) (regAt w 16)⟩  -- c.ueq.d
  , ⟨0xFFE007FF#32, 0x46000037#32, fun w => .cUleS (regAt w 11) (regAt w 16)⟩  -- c.ule.s
  , ⟨0xFFE007FF#32, 0x46200037#32, fun w => .cUleD (regAt w 11) (regAt w 16)⟩  -- c.ule.d
  , ⟨0xFFE007FF#32, 0x46000035#32, fun w => .cUltS (regAt w 11) (regAt w 16)⟩  -- c.ult.s
  , ⟨0xFFE007FF#32, 0x46200035#32, fun w => .cUltD (regAt w 11) (regAt w 16)⟩  -- c.ult.d
  , ⟨0xFFE007FF#32, 0x46000031#32, fun w => .cUnS (regAt w 11) (regAt w 16)⟩  -- c.un.s
  , ⟨0xFFE007FF#32, 0x46200031#32, fun w => .cUnD (regAt w 11) (regAt w 16)⟩  -- c.un.d
  , ⟨0xFFE0003F#32, 0x46000012#32, fun w => .movzS (regAt w 6) (regAt w 11) (regAt w 16)⟩  -- movz.s
  , ⟨0xFFE0003F#32, 0x46200012#32, fun w => .movzD (regAt w 6) (regAt w 11) (regAt w 16)⟩  -- movz.d
  , ⟨0xFFE0003F#32, 0x46000013#32, fun w => .movnS (regAt w 6) (regAt w 11) (regAt w 16)⟩  -- movn.s
  , ⟨0xFFE0003F#32, 0x46200013#32, fun w => .movnD (regAt w 6) (regAt w 11) (regAt w 16)⟩  -- movn.d
  , ⟨0xFFFF003F#32, 0x46010011#32, fun w => .movtS (regAt w 6) (regAt w 11)⟩  -- movt.s
  , ⟨0xFFFF003F#32, 0x46210011#32, fun w => .movtD (regAt w 6) (regAt w 11)⟩  -- movt.d
  , ⟨0xFFFF003F#32, 0x46000011#32, fun w => .movfS (regAt w 6) (regAt w 11)⟩  -- movf.s
  , ⟨0xFFFF003F#32, 0x46200011#32, fun w => .movfD (regAt w 6) (regAt w 11)⟩  -- movf.d
  ]

/-- The rows of 45_fp_compare_convert.md (continued). -/
def fpMoveRowsB : List Row :=
  [ ⟨0xFFFF003F#32, 0x46000021#32, fun w => .cvtDS (regAt w 6) (regAt w 11)⟩  -- cvt.d.s
  , ⟨0xFFFF003F#32, 0x46200020#32, fun w => .cvtSD (regAt w 6) (regAt w 11)⟩  -- cvt.s.d
  , ⟨0xFFFF003F#32, 0x46800020#32, fun w => .cvtSW (regAt w 6) (regAt w 11)⟩  -- cvt.s.w
  , ⟨0xFFFF003F#32, 0x46800021#32, fun w => .cvtDW (regAt w 6) (regAt w 11)⟩  -- cvt.d.w
  , ⟨0xFFFF003F#32, 0x46000024#32, fun w => .cvtWS (regAt w 6) (regAt w 11)⟩  -- cvt.w.s
  , ⟨0xFFFF003F#32, 0x46200024#32, fun w => .cvtWD (regAt w 6) (regAt w 11)⟩  -- cvt.w.d
  , ⟨0xFFFF003F#32, 0x4600000C#32, fun w => .roundWS (regAt w 6) (regAt w 11)⟩  -- round.w.s
  , ⟨0xFFFF003F#32, 0x4620000C#32, fun w => .roundWD (regAt w 6) (regAt w 11)⟩  -- round.w.d
  , ⟨0xFFFF003F#32, 0x4600000E#32, fun w => .ceilWS (regAt w 6) (regAt w 11)⟩  -- ceil.w.s
  , ⟨0xFFFF003F#32, 0x4620000E#32, fun w => .ceilWD (regAt w 6) (regAt w 11)⟩  -- ceil.w.d
  , ⟨0xFFFF003F#32, 0x4600000F#32, fun w => .floorWS (regAt w 6) (regAt w 11)⟩  -- floor.w.s
  , ⟨0xFFFF003F#32, 0x4620000F#32, fun w => .floorWD (regAt w 6) (regAt w 11)⟩  -- floor.w.d
  , ⟨0xFFFF003F#32, 0x4600000D#32, fun w => .truncWS (regAt w 6) (regAt w 11)⟩  -- trunc.w.s
  , ⟨0xFFFF003F#32, 0x4620000D#32, fun w => .truncWD (regAt w 6) (regAt w 11)⟩  -- trunc.w.d
  , ⟨0xFFE007FF#32, 0x44000000#32, fun w => .mfc1 (regAt w 16) (regAt w 11)⟩  -- mfc1
  , ⟨0xFFE007FF#32, 0x44800000#32, fun w => .mtc1 (regAt w 16) (regAt w 11)⟩  -- mtc1
  , ⟨0xFFE007FF#32, 0x44600000#32, fun w => .mfhc1 (regAt w 16) (regAt w 11)⟩  -- mfhc1
  , ⟨0xFFE007FF#32, 0x44200000#32, fun w => .mflc1 (regAt w 16) (regAt w 11)⟩  -- mflc1
  , ⟨0xFFE007FF#32, 0x44E00000#32, fun w => .mthc1 (regAt w 16) (regAt w 11)⟩  -- mthc1
  , ⟨0xFFE007FF#32, 0x44A00000#32, fun w => .mtlc1 (regAt w 16) (regAt w 11)⟩  -- mtlc1
  ]

/-- The rows of 45_fp_compare_convert.md, all of them. -/
def fpMoveRows : List Row := fpMoveRowsA ++ fpMoveRowsB

/-- The rows of 46_loadstore.md. -/
def loadStoreRows : List Row :=
  [ ⟨0xFC000000#32, 0x80000000#32, fun w => .ldb (regAt w 16) (w.extractLsb' 0 16) (regAt w 21)⟩  -- ldb
  , ⟨0xFC000000#32, 0x90000000#32, fun w => .ldbu (regAt w 16) (w.extractLsb' 0 16) (regAt w 21)⟩  -- ldbu
  , ⟨0xFC000000#32, 0x84000000#32, fun w => .ldh (regAt w 16) (w.extractLsb' 0 16) (regAt w 21)⟩  -- ldh
  , ⟨0xFC000000#32, 0x94000000#32, fun w => .ldhu (regAt w 16) (w.extractLsb' 0 16) (regAt w 21)⟩  -- ldhu
  , ⟨0xFC000000#32, 0x8C000000#32, fun w => .ldw (regAt w 16) (w.extractLsb' 0 16) (regAt w 21)⟩  -- ldw
  , ⟨0xFC000000#32, 0x88000000#32, fun w => .ldwl (regAt w 16) (w.extractLsb' 0 16) (regAt w 21)⟩  -- ldwl
  , ⟨0xFC000000#32, 0x98000000#32, fun w => .ldwr (regAt w 16) (w.extractLsb' 0 16) (regAt w 21)⟩  -- ldwr
  , ⟨0xFC000000#32, 0xA0000000#32, fun w => .stb (regAt w 16) (w.extractLsb' 0 16) (regAt w 21)⟩  -- stb
  , ⟨0xFC000000#32, 0xA4000000#32, fun w => .sth (regAt w 16) (w.extractLsb' 0 16) (regAt w 21)⟩  -- sth
  , ⟨0xFC000000#32, 0xAC000000#32, fun w => .stw (regAt w 16) (w.extractLsb' 0 16) (regAt w 21)⟩  -- stw
  , ⟨0xFC000000#32, 0xA8000000#32, fun w => .stwl (regAt w 16) (w.extractLsb' 0 16) (regAt w 21)⟩  -- stwl
  , ⟨0xFC000000#32, 0xB8000000#32, fun w => .stwr (regAt w 16) (w.extractLsb' 0 16) (regAt w 21)⟩  -- stwr
  , ⟨0xFC000000#32, 0xC0000000#32, fun w => .ll (regAt w 16) (w.extractLsb' 0 16) (regAt w 21)⟩  -- ll
  , ⟨0xFC000000#32, 0xE0000000#32, fun w => .sc (regAt w 16) (w.extractLsb' 0 16) (regAt w 21)⟩  -- sc
  , ⟨0xFC000000#32, 0xC4000000#32, fun w => .lwc1 (regAt w 16) (w.extractLsb' 0 16) (regAt w 21)⟩  -- lwc1
  , ⟨0xFC000000#32, 0xD4000000#32, fun w => .ldc1 (regAt w 16) (w.extractLsb' 0 16) (regAt w 21)⟩  -- ldc1
  , ⟨0xFC000000#32, 0xE4000000#32, fun w => .swc1 (regAt w 16) (w.extractLsb' 0 16) (regAt w 21)⟩  -- swc1
  , ⟨0xFC000000#32, 0xF4000000#32, fun w => .sdc1 (regAt w 16) (w.extractLsb' 0 16) (regAt w 21)⟩  -- sdc1
  ]

/-- The opcode table: the 134 rows of 30_encoding.md R166, in its order. -/
def opcodeTable : List Row :=
  integerRows ++ controlRows ++ compactRows ++ trapRows ++ fpArithRows ++ fpMoveRows ++ loadStoreRows

/-- The instruction of a word (30_encoding.md R157, R166). -/
def decode (w : Word) : Except DecodeError Instr :=
  match opcodeTable.find? (fun r => r.Matches w) with
  | some r => .ok (r.build w)
  | none => .error (.reservedInstruction w)

/-- The word of four bytes in the order they stand in memory, most significant first
(20_memory.md R103, R105). -/
def wordOfBytes (b0 b1 b2 b3 : Byte) : Word := b0 ++ b1 ++ b2 ++ b3

/-- The four bytes of a word in the order they stand in memory (20_memory.md R103). -/
def bytesOfWord (w : Word) : List Byte :=
  [w.extractLsb' 24 8, w.extractLsb' 16 8, w.extractLsb' 8 8, w.extractLsb' 0 8]

/-- The instruction at the head of a list of bytes, with the bytes after it (30_encoding.md R141). -/
def decodeBytes : List Byte → Except DecodeError (Instr × List Byte)
  | b0 :: b1 :: b2 :: b3 :: rest =>
    match decode (wordOfBytes b0 b1 b2 b3) with
    | .ok i => .ok (i, rest)
    | .error e => .error e
  | _ => .error .truncated

/-- The instruction the decoder reads from the word `w` of `nbits` bits, laid out as the hardware
stores it: bits from `nbits` up are zero, and the instruction's one word stands big-endian. -/
def decodeTableWord (nbits w : Nat) : Option Instr :=
  match decodeBytes (bytesOfWord (BitVec.ofNat 32 (w % 2 ^ nbits))) with
  | .ok (i, _) => some i
  | .error _ => none

/-- The five bits of a register index or shift amount. -/
def reg (i : Fin 32) : BitVec 5 := BitVec.ofFin i

/-- Formats with four five-bit fields between opcode and function: R, RD2, RCC, R2, R3, R3X, FR, FC,
FZ, FM, FT and F4 (30_encoding.md R142 to R144, R148, R149). -/
def formatR (op : BitVec 6) (a b c d : BitVec 5) (funct : BitVec 6) : Word :=
  op ++ a ++ b ++ c ++ d ++ funct

/-- Formats with a 16-bit immediate: I, IF, RI, FB and CR (30_encoding.md R146, R149, R150). -/
def formatI (op : BitVec 6) (a b : BitVec 5) (imm : BitVec 16) : Word := op ++ a ++ b ++ imm

/-- Format J (30_encoding.md R147). -/
def formatJ (op : BitVec 6) (imm : BitVec 26) : Word := op ++ imm

/-- Format CIH, ijmphi (30_encoding.md R150). -/
def formatCIH (op : BitVec 6) (imm : BitVec 20) : Word := op ++ 0#6 ++ imm

/-- Format CIJ, ijmp (30_encoding.md R150). -/
def formatCIJ (op : BitVec 6) (a : BitVec 5) (imm : BitVec 12) : Word := op ++ a ++ 0#9 ++ imm

/-- Format CLH, ldihi (30_encoding.md R150). -/
def formatCLH (op : BitVec 6) (imm : BitVec 18) : Word := op ++ 0#8 ++ imm

/-- Format CLI, ldi (30_encoding.md R150). -/
def formatCLI (op : BitVec 6) (b : BitVec 5) (imm : BitVec 14) : Word :=
  op ++ 0#5 ++ b ++ 0#2 ++ imm

/-- Format RT, teq (30_encoding.md R145). -/
def formatRT (a b : BitVec 5) (code : BitVec 10) (funct : BitVec 6) : Word :=
  0#6 ++ a ++ b ++ code ++ funct

/-- Format RS, break and syscall (30_encoding.md R145). -/
def formatRS (code : BitVec 20) (funct : BitVec 6) : Word := 0#6 ++ code ++ funct

/-- The word of an instruction (30_encoding.md R142 to R156). Of the operands of ext the fields hold
the position and the size less 1 (R148). -/
def encode : Instr → Word
  | .add rd rs rt => formatR 0x00 (reg rs) (reg rt) (reg rd) 0x00 0x20
  | .sub rd rs rt => formatR 0x00 (reg rs) (reg rt) (reg rd) 0x00 0x22
  | .and rd rs rt => formatR 0x00 (reg rs) (reg rt) (reg rd) 0x00 0x24
  | .or rd rs rt => formatR 0x00 (reg rs) (reg rt) (reg rd) 0x00 0x25
  | .xor rd rs rt => formatR 0x00 (reg rs) (reg rt) (reg rd) 0x00 0x26
  | .nor rd rs rt => formatR 0x00 (reg rs) (reg rt) (reg rd) 0x00 0x27
  | .slt rd rs rt => formatR 0x00 (reg rs) (reg rt) (reg rd) 0x00 0x2A
  | .sltu rd rs rt => formatR 0x00 (reg rs) (reg rt) (reg rd) 0x00 0x2B
  | .addi rt rs imm => formatI 0x08 (reg rs) (reg rt) imm
  | .slti rt rs imm => formatI 0x0A (reg rs) (reg rt) imm
  | .sltiu rt rs imm => formatI 0x0B (reg rs) (reg rt) imm
  | .andi rt rs imm => formatI 0x0C (reg rs) (reg rt) imm
  | .ori rt rs imm => formatI 0x0D (reg rs) (reg rt) imm
  | .xori rt rs imm => formatI 0x0E (reg rs) (reg rt) imm
  | .sll rd rt sa => formatR 0x00 0x00 (reg rt) (reg rd) (reg sa) 0x00
  | .srl rd rt sa => formatR 0x00 0x00 (reg rt) (reg rd) (reg sa) 0x02
  | .sra rd rt sa => formatR 0x00 0x00 (reg rt) (reg rd) (reg sa) 0x03
  | .sllv rd rt rs => formatR 0x00 (reg rs) (reg rt) (reg rd) 0x00 0x04
  | .srlv rd rt rs => formatR 0x00 (reg rs) (reg rt) (reg rd) 0x00 0x06
  | .srav rd rt rs => formatR 0x00 (reg rs) (reg rt) (reg rd) 0x00 0x07
  | .ror rd rt sa => formatR 0x00 0x01 (reg rt) (reg rd) (reg sa) 0x02
  | .rorr rd rt rs => formatR 0x00 (reg rs) (reg rt) (reg rd) 0x01 0x06
  | .mul rd rh rs rt => formatR 0x00 (reg rs) (reg rt) (reg rd) (reg rh) 0x18
  | .mulu rd rh rs rt => formatR 0x00 (reg rs) (reg rt) (reg rd) (reg rh) 0x19
  | .div rd rh rs rt => formatR 0x00 (reg rs) (reg rt) (reg rd) (reg rh) 0x1A
  | .divu rd rh rs rt => formatR 0x00 (reg rs) (reg rt) (reg rd) (reg rh) 0x1B
  | .clz rd rs ign => formatR 0x1C (reg rs) ign (reg rd) 0x00 0x20
  | .seb rd rt => formatR 0x1F 0x00 (reg rt) (reg rd) 0x10 0x20
  | .seh rd rt => formatR 0x1F 0x00 (reg rt) (reg rd) 0x18 0x20
  | .ext rt rs pos size => formatR 0x1F (reg rs) (reg rt) (BitVec.ofNat 5 (size - 1)) (BitVec.ofNat 5 pos) 0x00
  | .movz rd rs rt => formatR 0x00 (reg rs) (reg rt) (reg rd) 0x00 0x0A
  | .movn rd rs rt => formatR 0x00 (reg rs) (reg rt) (reg rd) 0x00 0x0B
  | .movt rd rs => formatR 0x00 (reg rs) 0x01 (reg rd) 0x00 0x01
  | .movf rd rs => formatR 0x00 (reg rs) 0x00 (reg rd) 0x00 0x01
  | .jump imm => formatJ 0x02 imm
  | .call imm => formatJ 0x03 imm
  | .jumpr rs => formatR 0x00 (reg rs) 0x00 0x00 0x00 0x08
  | .callr rs => formatR 0x00 (reg rs) 0x00 0x1F 0x00 0x09
  | .jeq rs rt imm => formatI 0x04 (reg rs) (reg rt) imm
  | .jne rs rt imm => formatI 0x05 (reg rs) (reg rt) imm
  | .jlez rs imm => formatI 0x06 (reg rs) 0x00 imm
  | .jgtz rs imm => formatI 0x07 (reg rs) 0x00 imm
  | .jltz rs imm => formatI 0x01 (reg rs) 0x00 imm
  | .jgez rs imm => formatI 0x01 (reg rs) 0x01 imm
  | .bc1t imm => formatI 0x11 0x08 0x01 imm
  | .bc1f imm => formatI 0x11 0x08 0x00 imm
  | .rcall imm => formatI 0x18 0x00 0x00 imm
  | .ijmphi imm => formatCIH 0x19 imm
  | .ijmp rs imm => formatCIJ 0x1A (reg rs) imm
  | .ldi rt imm => formatCLI 0x1E (reg rt) imm
  | .ldihi imm => formatCLH 0x1B imm
  | .teq rs rt code => formatRT (reg rs) (reg rt) code 0x34
  | .brk code => formatRS code 0x0D
  | .syscall code => formatRS code 0x0C
  | .addS fd fs ft => formatR 0x11 0x10 (reg ft) (reg fs) (reg fd) 0x00
  | .addD fd fs ft => formatR 0x11 0x11 (reg ft) (reg fs) (reg fd) 0x00
  | .subS fd fs ft => formatR 0x11 0x10 (reg ft) (reg fs) (reg fd) 0x01
  | .subD fd fs ft => formatR 0x11 0x11 (reg ft) (reg fs) (reg fd) 0x01
  | .mulS fd fs ft => formatR 0x11 0x10 (reg ft) (reg fs) (reg fd) 0x02
  | .mulD fd fs ft => formatR 0x11 0x11 (reg ft) (reg fs) (reg fd) 0x02
  | .divS fd fs ft => formatR 0x11 0x10 (reg ft) (reg fs) (reg fd) 0x03
  | .divD fd fs ft => formatR 0x11 0x11 (reg ft) (reg fs) (reg fd) 0x03
  | .sqrtS fd fs => formatR 0x11 0x10 0x00 (reg fs) (reg fd) 0x04
  | .sqrtD fd fs => formatR 0x11 0x11 0x00 (reg fs) (reg fd) 0x04
  | .absS fd fs => formatR 0x11 0x10 0x00 (reg fs) (reg fd) 0x05
  | .absD fd fs => formatR 0x11 0x11 0x00 (reg fs) (reg fd) 0x05
  | .negS fd fs => formatR 0x11 0x10 0x00 (reg fs) (reg fd) 0x07
  | .negD fd fs => formatR 0x11 0x11 0x00 (reg fs) (reg fd) 0x07
  | .movS fd fs => formatR 0x11 0x10 0x00 (reg fs) (reg fd) 0x06
  | .movD fd fs => formatR 0x11 0x11 0x00 (reg fs) (reg fd) 0x06
  | .maddS fd fr fs ft => formatR 0x13 (reg fr) (reg ft) (reg fs) (reg fd) 0x20
  | .maddD fd fr fs ft => formatR 0x13 (reg fr) (reg ft) (reg fs) (reg fd) 0x21
  | .msubS fd fr fs ft => formatR 0x13 (reg fr) (reg ft) (reg fs) (reg fd) 0x28
  | .msubD fd fr fs ft => formatR 0x13 (reg fr) (reg ft) (reg fs) (reg fd) 0x29
  | .cEqS fs ft => formatR 0x11 0x10 (reg ft) (reg fs) 0x00 0x32
  | .cEqD fs ft => formatR 0x11 0x11 (reg ft) (reg fs) 0x00 0x32
  | .cOleS fs ft => formatR 0x11 0x10 (reg ft) (reg fs) 0x00 0x36
  | .cOleD fs ft => formatR 0x11 0x11 (reg ft) (reg fs) 0x00 0x36
  | .cOltS fs ft => formatR 0x11 0x10 (reg ft) (reg fs) 0x00 0x34
  | .cOltD fs ft => formatR 0x11 0x11 (reg ft) (reg fs) 0x00 0x34
  | .cUeqS fs ft => formatR 0x11 0x10 (reg ft) (reg fs) 0x00 0x33
  | .cUeqD fs ft => formatR 0x11 0x11 (reg ft) (reg fs) 0x00 0x33
  | .cUleS fs ft => formatR 0x11 0x10 (reg ft) (reg fs) 0x00 0x37
  | .cUleD fs ft => formatR 0x11 0x11 (reg ft) (reg fs) 0x00 0x37
  | .cUltS fs ft => formatR 0x11 0x10 (reg ft) (reg fs) 0x00 0x35
  | .cUltD fs ft => formatR 0x11 0x11 (reg ft) (reg fs) 0x00 0x35
  | .cUnS fs ft => formatR 0x11 0x10 (reg ft) (reg fs) 0x00 0x31
  | .cUnD fs ft => formatR 0x11 0x11 (reg ft) (reg fs) 0x00 0x31
  | .movzS fd fs rt => formatR 0x11 0x10 (reg rt) (reg fs) (reg fd) 0x12
  | .movzD fd fs rt => formatR 0x11 0x11 (reg rt) (reg fs) (reg fd) 0x12
  | .movnS fd fs rt => formatR 0x11 0x10 (reg rt) (reg fs) (reg fd) 0x13
  | .movnD fd fs rt => formatR 0x11 0x11 (reg rt) (reg fs) (reg fd) 0x13
  | .movtS fd fs => formatR 0x11 0x10 0x01 (reg fs) (reg fd) 0x11
  | .movtD fd fs => formatR 0x11 0x11 0x01 (reg fs) (reg fd) 0x11
  | .movfS fd fs => formatR 0x11 0x10 0x00 (reg fs) (reg fd) 0x11
  | .movfD fd fs => formatR 0x11 0x11 0x00 (reg fs) (reg fd) 0x11
  | .cvtDS fd fs => formatR 0x11 0x10 0x00 (reg fs) (reg fd) 0x21
  | .cvtSD fd fs => formatR 0x11 0x11 0x00 (reg fs) (reg fd) 0x20
  | .cvtSW fd fs => formatR 0x11 0x14 0x00 (reg fs) (reg fd) 0x20
  | .cvtDW fd fs => formatR 0x11 0x14 0x00 (reg fs) (reg fd) 0x21
  | .cvtWS fd fs => formatR 0x11 0x10 0x00 (reg fs) (reg fd) 0x24
  | .cvtWD fd fs => formatR 0x11 0x11 0x00 (reg fs) (reg fd) 0x24
  | .roundWS fd fs => formatR 0x11 0x10 0x00 (reg fs) (reg fd) 0x0C
  | .roundWD fd fs => formatR 0x11 0x11 0x00 (reg fs) (reg fd) 0x0C
  | .ceilWS fd fs => formatR 0x11 0x10 0x00 (reg fs) (reg fd) 0x0E
  | .ceilWD fd fs => formatR 0x11 0x11 0x00 (reg fs) (reg fd) 0x0E
  | .floorWS fd fs => formatR 0x11 0x10 0x00 (reg fs) (reg fd) 0x0F
  | .floorWD fd fs => formatR 0x11 0x11 0x00 (reg fs) (reg fd) 0x0F
  | .truncWS fd fs => formatR 0x11 0x10 0x00 (reg fs) (reg fd) 0x0D
  | .truncWD fd fs => formatR 0x11 0x11 0x00 (reg fs) (reg fd) 0x0D
  | .mfc1 rt fs => formatR 0x11 0x00 (reg rt) (reg fs) 0x00 0x00
  | .mtc1 rt fs => formatR 0x11 0x04 (reg rt) (reg fs) 0x00 0x00
  | .mfhc1 rt fs => formatR 0x11 0x03 (reg rt) (reg fs) 0x00 0x00
  | .mflc1 rt fs => formatR 0x11 0x01 (reg rt) (reg fs) 0x00 0x00
  | .mthc1 rt fs => formatR 0x11 0x07 (reg rt) (reg fs) 0x00 0x00
  | .mtlc1 rt fs => formatR 0x11 0x05 (reg rt) (reg fs) 0x00 0x00
  | .ldb rt imm rs => formatI 0x20 (reg rs) (reg rt) imm
  | .ldbu rt imm rs => formatI 0x24 (reg rs) (reg rt) imm
  | .ldh rt imm rs => formatI 0x21 (reg rs) (reg rt) imm
  | .ldhu rt imm rs => formatI 0x25 (reg rs) (reg rt) imm
  | .ldw rt imm rs => formatI 0x23 (reg rs) (reg rt) imm
  | .ldwl rt imm rs => formatI 0x22 (reg rs) (reg rt) imm
  | .ldwr rt imm rs => formatI 0x26 (reg rs) (reg rt) imm
  | .stb rt imm rs => formatI 0x28 (reg rs) (reg rt) imm
  | .sth rt imm rs => formatI 0x29 (reg rs) (reg rt) imm
  | .stw rt imm rs => formatI 0x2B (reg rs) (reg rt) imm
  | .stwl rt imm rs => formatI 0x2A (reg rs) (reg rt) imm
  | .stwr rt imm rs => formatI 0x2E (reg rs) (reg rt) imm
  | .ll rt imm rs => formatI 0x30 (reg rs) (reg rt) imm
  | .sc rt imm rs => formatI 0x38 (reg rs) (reg rt) imm
  | .lwc1 ft imm rs => formatI 0x31 (reg rs) (reg ft) imm
  | .ldc1 ft imm rs => formatI 0x35 (reg rs) (reg ft) imm
  | .swc1 ft imm rs => formatI 0x39 (reg rs) (reg ft) imm
  | .sdc1 ft imm rs => formatI 0x3D (reg rs) (reg ft) imm

/-- The bytes of an instruction in the order they stand in memory (20_memory.md R105). -/
def encodeBytes (i : Instr) : List Byte := bytesOfWord (encode i)

end Sys2Proof
end

