-- ==== Sys2Proof/Config.lean ====
section
/-! DEFINITION. What is fixed for the machine (the parameters of 00_scope.md section 3 that this
hardware fixes) and the free values: opaque constants without a body, of which nothing can be
proved but their type. -/

namespace Sys2Proof

/-- How a float is rounded to an integer (45_fp_compare_convert.md R403). -/
inductive WordRounding where
  | truncate | nearestEven | ceiling | floor
  deriving DecidableEq, Repr

/-- The instruction tag `nanOf` is asked about (00_scope.md R15). -/
inductive NanOp where
  | addS | addD | subS | subD | mulS | mulD | divS | divD | sqrtS | sqrtD
  | maddS | maddD | msubS | msubD | cvtDS | cvtSD
  deriving DecidableEq, Repr

/-- The instruction tag `cvtWInvalid` is asked about (00_scope.md R14). -/
inductive ToWordOp where
  | cvtWS | cvtWD | roundWS | roundWD | ceilWS | ceilWD | floorWS | floorWD | truncWS | truncWD
  deriving DecidableEq, Repr

/-- An operand's bit pattern, single or double. -/
inductive FpPattern where
  | single (b : Word)
  | double (b : DWord)
  deriving DecidableEq, Repr

/-- A binary32 NaN, whichever: any sign and any non-zero fraction (the fraction is `below + 1`). -/
structure Nan32 where
  neg   : Bool
  below : Fin 8388607
  deriving DecidableEq, Repr, Inhabited

/-- A binary64 NaN, whichever: any sign and any non-zero fraction (the fraction is `below + 1`). -/
structure Nan64 where
  neg   : Bool
  below : Fin 4503599627370495
  deriving DecidableEq, Repr, Inhabited

/-- What the host answers to a supported call other than exit (60_exceptions.md R508, R513): the
32-bit return value and the guest bytes it writes, or a fatal condition of its own (R495). Whether
the host has written guest bytes when the condition ends the run is open; DESIGN CHOICE (log 30): it
may have, any bytes, and they are part of the answer. -/
inductive HostReply where
  | returns (r : Word) (writes : List (Word × Byte))
  | fatal (writes : List (Word × Byte))
  deriving DecidableEq, Repr, Inhabited

/-- `LINK_REG = 31` (00_scope.md R10). -/
def Config.linkReg : Gpr := 31

/-- `R0_HARDWIRED = false` (00_scope.md R11). -/
def Config.r0Hardwired : Bool := false

/-- `IJMP_SCALE = 4` (00_scope.md R12). -/
def Config.ijmpScale : Word := 4

/-- `CVT_W_MODE = truncate` (00_scope.md R13). -/
def Config.cvtWMode : WordRounding := .truncate

/-- `ENTRY` is OPEN (00_scope.md R22). DESIGN CHOICE (log 1, unsafe): the entry address of the
test programs of 95_test_vectors.md section 4. -/
def Config.entry : Word := 0x00400000#32

/-- What a byte that no list entry names reads as. The spec gives memory no launch contents.
DESIGN CHOICE (log 3, unsafe): zero. -/
def Config.unlistedByte : Byte := 0#8

/-- `nanOf` for a single result (00_scope.md R15): some NaN that depends on the instruction and
its operand patterns alone. Free value (log 11). -/
opaque Config.nanOfS : NanOp → List FpPattern → Nan32

/-- `nanOf` for a double result (00_scope.md R15). Free value (log 11). -/
opaque Config.nanOfD : NanOp → List FpPattern → Nan64

/-- `cvtWInvalid` (00_scope.md R14): some word that depends on the instruction and the operand
pattern alone. Free value (log 12). -/
opaque Config.cvtWInvalid : ToWordOp → FpPattern → Word

/-- The n-th draw of 40_integer.md R204: true keeps the result of the first destination field
(`rd`), false that of the second (`rh`). Free value (log 10). -/
opaque Config.draw : Nat → Bool

/-- The host's answer to a supported call when no answer is queued. Free value (log 14). -/
opaque Config.hostReply : Nat → HostReply

/-- What an inspection read of `hi` gives before a write (10_state.md R59). Free value (log 19). -/
opaque Config.unwrittenHi : Word

/-- What an inspection read of `lo` gives before a write (10_state.md R59). Free value (log 19). -/
opaque Config.unwrittenLo : Word

/-- One less than `FATAL_EXIT_STATUS` (00_scope.md R21), so that the status is not zero. Free
value (log 20). -/
opaque Config.fatalExitBelow : Nat

/-- `FATAL_EXIT_STATUS`, non-zero and otherwise OPEN (00_scope.md R21). -/
def Config.fatalExitStatus : Nat := Config.fatalExitBelow + 1

end Sys2Proof
end

