-- ==== Sys2Proof/Machine/State.lean ====
section
/-! DEFINITION. The state of the machine as plain data (10_state.md R40), the faults the block can
raise (60_exceptions.md R481), the reasons the model stops, and the state after reset. -/

namespace Sys2Proof.Machine

/-- A register that carries a written-mark (10_state.md R58). -/
structure Marked (α : Type) where
  val     : α
  written : Bool
  deriving DecidableEq, Repr

/-- A register at reset: the value the model names and the mark false (R58). -/
def Marked.unwritten {α : Type} (v : α) : Marked α := ⟨v, false⟩

/-- A register just written: the mark is true (R58). -/
def Marked.wrote {α : Type} (v : α) : Marked α := ⟨v, true⟩

/-- The registers whose unwritten read is a fault (10_state.md R58). -/
inductive MarkedReg where
  | cc | ldireg | ijmpreg
  | fpr (j : Fpr)
  deriving DecidableEq, Repr

/-- The faults of the block, each with the information its rule records beside the pc and the word
(60_exceptions.md R481 to R495). -/
inductive Trap where
  /-- Code 1: teq with equal operands (R482). -/
  | trapEqual
  /-- Code 2: the break instruction (R483). -/
  | break
  /-- Code 3: a next pc of 0 (R484). -/
  | undefinedJumpTarget
  /-- Code 4: an integer divisor 0 (R485). -/
  | divideByZero
  /-- Code 5: -2^31 divided by -1 (R486). -/
  | divideOverflow
  /-- Code 6: a data address not aligned to its width (R487). -/
  | misalignedAccess (addr : Word)
  /-- Code 7: a fetch at a pc that is not a multiple of 4 (R488). -/
  | misalignedFetch
  /-- Code 8: a read of a register never written (R489). -/
  | unwrittenState (which : MarkedReg)
  /-- Code 9: a double at index 31 (R490). -/
  | doubleRegisterOutOfRange (index : Fpr)
  /-- Code 10: ext past bit 31 (R491). -/
  | illegalExtField
  /-- Code 11: round-to-nearest-even cannot be selected (R492). -/
  | roundingModeUnavailable
  /-- Code 12: a word that is no instruction (R493). -/
  | reservedInstruction
  /-- Code 13: a fetch from a byte a store of the run has written (R494). -/
  | selfModifyingCode
  /-- Code 14: the host ends the run on a fatal condition of its own (R495). -/
  | hostFatal
  deriving DecidableEq, Repr

/-- The run status (10_state.md R62). A fault leaves its record (60_exceptions.md R480, R498): the
fault, the pc, and the word fetched there, absent where the fault arose before a word was. -/
inductive RunStatus where
  | running
  | halted (trap : Trap) (pc : Word) (word : Option Word)
  | exited (status : Word)
  deriving DecidableEq, Repr

/-- Who acts in the next step of a running machine. A host call ends the step that runs syscall and
hands the state to the host (00_scope.md R27, R29); the host acts between steps of the block
(60_exceptions.md R507 to R513), and then execution resumes at npc (43_trap_system.md R312; log 13). -/
inductive Control where
  /-- The block: fetch, decode, execute. -/
  | block
  /-- The host, called by the syscall whose word is `word`. -/
  | host (word : Word)
  /-- The block, to resume at npc of that syscall. -/
  | resume (word : Word)
  deriving DecidableEq, Repr

/-- `SMC_POLICY` (00_scope.md R18, 20_memory.md R121). -/
inductive SmcPolicy where
  | fault | coherent
  deriving DecidableEq, Repr

/-- A run of admitted byte addresses: `size` of them from `base` up. -/
structure Region where
  base : Nat
  size : Nat
  deriving DecidableEq, Repr

/-- The parameters of a run that its embedding fixes. No step changes them. -/
structure Embedding where
  /-- `LaunchMemory`, the admitted byte addresses (00_scope.md R17). -/
  launch            : List Region
  /-- `SMC_POLICY` (00_scope.md R18). -/
  smcPolicy         : SmcPolicy
  /-- `ROUND_MODE_SETTABLE` (00_scope.md R16). -/
  roundModeSettable : Bool
  /-- `SUPPORTED_SYSCALLS` (60_exceptions.md R510). -/
  supportedSyscalls : List Word
  /-- `FSTAT_NR` (60_exceptions.md R510). -/
  fstatNr           : Word
  /-- The number of the exit call (60_exceptions.md R510, R511). -/
  exitNr            : Word
  deriving DecidableEq, Repr

/-- The bytes of the address space: pairs of address and byte, addresses strictly rising, none equal
to what an unlisted address reads as (20_memory.md R100; log 3). -/
abbrev Memory := List Host.Cell

/-- The canonical form of a memory, so that equal memories are equal lists. -/
abbrev Memory.wf (m : Memory) : Prop :=
  m.Pairwise (fun c d => c.1 < d.1) ∧ ∀ c ∈ m, c.1 < 2 ^ 32 ∧ c.2 ≠ Config.unlistedByte

/-- A set of byte addresses, strictly rising. -/
abbrev AddrSet := List Nat

/-- The canonical form of a set of addresses. -/
abbrev AddrSet.wf (a : AddrSet) : Prop := a.Pairwise (· < ·) ∧ ∀ n ∈ a, n < 2 ^ 32

/-- The state of the machine (10_state.md R40, 20_memory.md R100), the run's parameters, and three
fields of the model's own: who acts next, the queue of the host's coming answers, and the counter
that numbers the free values. -/
structure State where
  /-- x[0] to x[31] (10_state.md R41). -/
  gpr         : Vector Word 32
  /-- hi (10_state.md R45). -/
  hi          : Marked Word
  /-- lo (10_state.md R45). -/
  lo          : Marked Word
  /-- The program counter (10_state.md R46). -/
  pc          : Word
  /-- The condition code (10_state.md R49). -/
  cc          : Marked Bool
  /-- f[0] to f[31] (10_state.md R50). -/
  fpr         : Vector (Marked Word) 32
  /-- The pending target of ldihi (10_state.md R54). -/
  ldireg      : Marked Gpr
  /-- The pending jump-table base of ijmp (10_state.md R55). -/
  ijmpreg     : Marked Word
  /-- The run status (10_state.md R62). -/
  status      : RunStatus
  /-- MODEL'S OWN: who acts next (00_scope.md R27, R29, 43_trap_system.md R312; log 13). -/
  control     : Control
  /-- The memory behind the port (20_memory.md R100). -/
  mem         : Memory
  /-- The byte addresses a store of this run has written (20_memory.md R121). -/
  stored      : AddrSet
  /-- The run's parameters. -/
  emb         : Embedding
  /-- MODEL'S OWN: the host's answers to the coming supported calls, first first (log 14). -/
  hostReplies : List HostReply
  /-- MODEL'S OWN: how many free values have been drawn (log 10, log 14). -/
  draws       : Nat
  deriving DecidableEq, Repr

/-- Why a step has no next state. -/
inductive Fault where
  /-- Raised by the fetch when the memory port does not admit a byte of the word at `addr`: the run is
  stuck there (60_exceptions.md R496). Safe: the spec gives no next state. -/
  | stuckFetch (addr : Word)
  /-- Raised by a load, a store or the table read of ijmp when the memory port does not admit a byte
  of the request at `addr`: the run is stuck there (60_exceptions.md R496). Safe. -/
  | stuckAccess (addr : Word)
  /-- Raised by `step` in a state that is halted or exited: only `running` has a next step
  (10_state.md R62). Safe. -/
  | notRunning
  deriving DecidableEq, Repr

/-- Why an instruction is refused. -/
inductive Refusal where
  /-- Raised by `exec` for an instruction without a meaning yet. Safe. No arm raises it. -/
  | notModelled (mnemonic : String)
  deriving DecidableEq, Repr

/-- What a meaning and a step answer. -/
abbrev Result := Host.Outcome State Fault Refusal

/-- The embedding at reset: the values the spec fixes (00_scope.md R16, R18); all of the address
space admitted (DESIGN CHOICE, log 4); the call numbers of the spec's test programs (PRESUMED,
log 15; 60_exceptions.md R510). -/
def Embedding.reset : Embedding where
  launch            := [⟨0, 2 ^ 32⟩]
  smcPolicy         := .fault
  roundModeSettable := true
  supportedSyscalls := [4001#32, 4003#32, 4004#32, 4005#32, 4006#32]
  fstatNr           := 4108#32
  exitNr            := 4001#32

/-- The machine right after reset (10_state.md R63, 70_reset_and_hazards.md R531): every GPR 0, pc at
`ENTRY` (log 1), status running, the block to act (log 13), every marked register unwritten (the
values under the marks are the model's, log 2), no program loaded (log 5). -/
def State.reset : State where
  gpr         := Vector.replicate 32 0#32
  hi          := .unwritten 0#32
  lo          := .unwritten 0#32
  pc          := Config.entry
  cc          := .unwritten false
  fpr         := Vector.replicate 32 (.unwritten 0#32)
  ldireg      := .unwritten 0
  ijmpreg     := .unwritten 0#32
  status      := .running
  control     := .block
  mem         := []
  stored      := []
  emb         := Embedding.reset
  hostReplies := []
  draws       := 0

end Sys2Proof.Machine
end

