-- ==== Sys2Proof/Machine/Ops.lean ====
section
/-! DEFINITION. The named operations over registers and memory, and taking a fault as one shared
operation. -/

namespace Sys2Proof.Machine

/-! ## How an attempt at an instruction ends -/

/-- Why an instruction does not complete: a fault of the block, or a memory request the port does
not admit (00_scope.md R29). -/
inductive Stop where
  | trap (t : Trap)
  | stuck (addr : Word)
  deriving DecidableEq, Repr

/-- A value, or the first reason in the order of 60_exceptions.md R497 not to have one. -/
abbrev Attempt (α : Type) := Except Stop α

/-- The code of a fault (60_exceptions.md R481). -/
def Trap.code : Trap → Nat
  | .trapEqual => 1
  | .break => 2
  | .undefinedJumpTarget => 3
  | .divideByZero => 4
  | .divideOverflow => 5
  | .misalignedAccess _ => 6
  | .misalignedFetch => 7
  | .unwrittenState _ => 8
  | .doubleRegisterOutOfRange _ => 9
  | .illegalExtField => 10
  | .roundingModeUnavailable => 11
  | .reservedInstruction => 12
  | .selfModifyingCode => 13
  | .hostFatal => 14

/-- Taking a fault: only the run status changes, to the record of the fault, the pc and the word
(60_exceptions.md R480, R498). There is no handler and no return from a fault (R499). -/
def State.halt (s : State) (t : Trap) (word : Option Word) : State :=
  { s with status := .halted t s.pc word }

/-- The instruction `i` raises the fault `t` in the state `s` it began in (00_scope.md R27). The
recorded word is the word of `i`, which is the word fetched at pc (log 8). -/
def raise (i : Instr) (t : Trap) (s : State) : Result := .next (s.halt t (some (encode i)))

/-- The instruction `i` calls the host: the step ends with the state unchanged, handed to the host
(00_scope.md R27, R29; 43_trap_system.md R312). -/
def callHost (i : Instr) (s : State) : Result := .next { s with control := .host (encode i) }

/-- The already-advanced program counter (00_scope.md R28). -/
def State.npc (s : State) : Word := s.pc + 4#32

/-- The end of an instruction that names the next pc: `s` is the state it began in; the attempt gives
the state with its writes done, and the next pc, which must not be 0 (41_control_flow.md R260). -/
def transfer (i : Instr) (s : State) : Attempt (State × Word) → Result
  | .error (.trap t) => raise i t s
  | .error (.stuck a) => .fault (.stuckAccess a)
  | .ok (s', t) => if t = 0#32 then raise i .undefinedJumpTarget s else .next { s' with pc := t }

/-- The end of an instruction that does not transfer control: pc <- npc (10_state.md R47). -/
def complete (i : Instr) (s : State) : Attempt State → Result
  | .error e => transfer i s (.error e)
  | .ok s' => transfer i s (.ok (s', s.npc))

/-! ## General registers -/

/-- x[r] (00_scope.md R25; with `R0_HARDWIRED`, x[0] reads 0, 10_state.md R42). -/
def State.readGpr (s : State) (r : Gpr) : Word :=
  if Config.r0Hardwired && r == 0 then 0#32 else s.gpr[r]

/-- x[r] <- v (00_scope.md R25; with `R0_HARDWIRED`, a write to x[0] is dropped, 10_state.md R42). -/
def State.writeGpr (s : State) (r : Gpr) (v : Word) : State :=
  if Config.r0Hardwired && r == 0 then s else { s with gpr := s.gpr.set r v }

/-- A destination of mul, mulu, div or divu: index 0 is the discard slot (40_integer.md R204). -/
def State.writeUnlessZero (s : State) (r : Gpr) (v : Word) : State :=
  if r = 0 then s else s.writeGpr r v

/-- The two results of mul, mulu, div and divu. Destinations that are equal and not 0 leave one of
the two results, which one is a draw (40_integer.md R204; log 10). -/
def State.writePair (s : State) (rd rh : Gpr) (low high : Word) : State :=
  if rd = rh ∧ rd ≠ 0 then
    { s.writeGpr rd (if Config.draw s.draws then low else high) with draws := s.draws + 1 }
  else (s.writeUnlessZero rd low).writeUnlessZero rh high

/-! ## The marked registers -/

/-- Read a marked register: a fault before its first write (10_state.md R58, 60_exceptions.md R489). -/
def Marked.read {α : Type} (m : Marked α) (which : MarkedReg) : Attempt α :=
  if m.written then .ok m.val else .error (.trap (.unwrittenState which))

/-- cc, if written (10_state.md R49). -/
def State.readCc (s : State) : Attempt Bool := s.cc.read .cc

/-- cc <- b (10_state.md R49). -/
def State.writeCc (s : State) (b : Bool) : State := { s with cc := .wrote b }

/-- ldireg, if written (10_state.md R54). -/
def State.readLdireg (s : State) : Attempt Gpr := s.ldireg.read .ldireg

/-- ijmpreg, if written (10_state.md R55). -/
def State.readIjmpreg (s : State) : Attempt Word := s.ijmpreg.read .ijmpreg

/-! ## Floating-point slots -/

/-- The pattern of the single at slot `j`, if written (10_state.md R50, R58). -/
def State.readS (s : State) (j : Fpr) : Attempt Word := s.fpr[j].read (.fpr j)

/-- setS(j, b): slot `j` and no other (00_scope.md R25, 10_state.md R52). -/
def State.writeS (s : State) (j : Fpr) (b : Word) : State :=
  { s with fpr := s.fpr.set j (.wrote b) }

/-- The index of a double is 0 to 30 (10_state.md R51, 60_exceptions.md R490). -/
def checkDouble (i : Fpr) : Attempt Unit :=
  if i = 31 then .error (.trap (.doubleRegisterOutOfRange i)) else .ok ()

/-- The pattern of the double at index `i`, f[i+1] ++ f[i] (10_state.md R51). Both slots must have
been written (R58); of two unwritten ones the fault names the lower (log 9). -/
def State.readD (s : State) (i : Fpr) : Attempt DWord := do
  let lo ← s.readS i
  let hi ← s.readS (i + 1)
  pure (hi ++ lo)

/-- setD(i, b): both slots at once (00_scope.md R25, 10_state.md R52). -/
def State.writeD (s : State) (i : Fpr) (b : DWord) : State :=
  { s with
    fpr :=
      (s.fpr.set i (.wrote (b.extractLsb' 0 32))).set (i + 1 : Fpr) (.wrote (b.extractLsb' 32 32)) }

/-! ## Memory -/

/-- The byte at an address; an unlisted address reads as `Config.unlistedByte` (log 3). -/
def Memory.read : Memory → Nat → Byte
  | [], _ => Config.unlistedByte
  | (b, v) :: m, a => if a = b then v else Memory.read m a

/-- Write the byte at an address and keep the canonical form. -/
def Memory.write : Memory → Nat → Byte → Memory
  | [], a, v => if v = Config.unlistedByte then [] else [(a, v)]
  | (b, w) :: m, a, v =>
    if a < b then (if v = Config.unlistedByte then (b, w) :: m else (a, v) :: (b, w) :: m)
    else if a = b then (if v = Config.unlistedByte then m else (a, v) :: m)
    else (b, w) :: Memory.write m a v

/-- Write bytes at `a`, `a + 1`, …; addresses wrap (20_memory.md R114). -/
def Memory.writeBytes (m : Memory) (a : Word) : List Byte → Memory
  | [] => m
  | v :: vs => Memory.writeBytes (m.write a.toNat v) (a + 1#32) vs

/-- Add an address to a set of addresses. -/
def AddrSet.insert : AddrSet → Nat → AddrSet
  | [], a => [a]
  | b :: l, a => if a < b then a :: b :: l else if a = b then b :: l else b :: AddrSet.insert l a

/-- Add `n` addresses from `a` up; addresses wrap (20_memory.md R114). -/
def AddrSet.insertRun (l : AddrSet) (a : Word) : Nat → AddrSet
  | 0 => l
  | n + 1 => AddrSet.insertRun (l.insert a.toNat) (a + 1#32) n

/-- Whether a region holds an address. -/
def Region.contains (r : Region) (a : Nat) : Bool := decide (r.base ≤ a) && decide (a < r.base + r.size)

/-- Whether the memory port admits the byte at `a` (00_scope.md R17, 20_memory.md R102). -/
def State.admits (s : State) (a : Word) : Bool := s.emb.launch.any fun r => r.contains a.toNat

/-- Whether the port admits the `n` bytes from `a` up. -/
def State.admitsRun (s : State) (a : Word) : Nat → Bool
  | 0 => true
  | n + 1 => s.admits a && s.admitsRun (a + 1#32) n

/-- The byte the memory holds at `a`. -/
def State.byteAt (s : State) (a : Word) : Byte := s.mem.read a.toNat

/-- The half the memory holds at `a`, big-endian (20_memory.md R103). -/
def State.halfAt (s : State) (a : Word) : Half := s.byteAt a ++ s.byteAt (a + 1#32)

/-- The word the memory holds at `a`, big-endian (20_memory.md R103). -/
def State.wordAt (s : State) (a : Word) : Word :=
  wordOfBytes (s.byteAt a) (s.byteAt (a + 1#32)) (s.byteAt (a + 2#32)) (s.byteAt (a + 3#32))

/-- The request of `n` bytes at `a` must be admitted, every byte of it (20_memory.md R102). -/
def State.checkAdmitted (s : State) (a : Word) (n : Nat) : Attempt Unit :=
  if s.admitsRun a n then .ok () else .error (.stuck a)

/-- An address a multiple of `n` (20_memory.md R107, R108). -/
def checkAligned (a : Word) (n : Nat) : Attempt Unit :=
  if a.toNat % n = 0 then .ok () else .error (.trap (.misalignedAccess a))

/-- MemRead(a, 1) (00_scope.md R26). -/
def State.loadByte (s : State) (a : Word) : Attempt Byte := do
  s.checkAdmitted a 1
  pure (s.byteAt a)

/-- MemRead(a, 2) (00_scope.md R26). -/
def State.loadHalf (s : State) (a : Word) : Attempt Half := do
  s.checkAdmitted a 2
  pure (s.halfAt a)

/-- MemRead(a, 4) (00_scope.md R26). -/
def State.loadWord (s : State) (a : Word) : Attempt Word := do
  s.checkAdmitted a 4
  pure (s.wordAt a)

/-- Put bytes at `a`, `a + 1`, … for a store of the run, which marks them (20_memory.md R121). -/
def State.putBytes (s : State) (a : Word) (bytes : List Byte) : State :=
  { s with
    mem := s.mem.writeBytes a bytes
    stored := s.stored.insertRun a bytes.length }

/-- The bytes of a half in memory order (20_memory.md R103). -/
def bytesOfHalf (v : Half) : List Byte := [v.extractLsb' 8 8, v.extractLsb' 0 8]

/-- MemWrite(a, 1, v) (00_scope.md R26). -/
def State.storeByte (s : State) (a : Word) (v : Byte) : Attempt State := do
  s.checkAdmitted a 1
  pure (s.putBytes a [v])

/-- MemWrite(a, 2, v) (00_scope.md R26). -/
def State.storeHalf (s : State) (a : Word) (v : Half) : Attempt State := do
  s.checkAdmitted a 2
  pure (s.putBytes a (bytesOfHalf v))

/-- MemWrite(a, 4, v) (00_scope.md R26). -/
def State.storeWord (s : State) (a : Word) (v : Word) : Attempt State := do
  s.checkAdmitted a 4
  pure (s.putBytes a (bytesOfWord v))

/-! ## Fetch -/

/-- Whether a store of the run has written a byte of the word at `a` (20_memory.md R121). -/
def State.storedInWord (s : State) (a : Word) : Bool :=
  [a, a + 1#32, a + 2#32, a + 3#32].any fun b => s.stored.contains b.toNat

/-- Fetch the word at pc, big-endian, with the checks of 60_exceptions.md R497 in their order: an
aligned pc (R488), the port's admission (R496), and with `SMC_POLICY = fault` no byte that a store
of the run has written (R494). -/
def State.fetch (s : State) : Attempt Word :=
  if s.pc.toNat % 4 ≠ 0 then .error (.trap .misalignedFetch)
  else if !s.admitsRun s.pc 4 then .error (.stuck s.pc)
  else if s.emb.smcPolicy = .fault ∧ s.storedInWord s.pc then .error (.trap .selfModifyingCode)
  else .ok (s.wordAt s.pc)

end Sys2Proof.Machine
end

