-- ==== Sys2Proof/Machine/Operands.lean ====
section
/-! DEFINITION. The operand forms: effective addresses, branch and region targets, shift amounts, bit
fields, products and quotients, and the merges of the unaligned loads and stores. -/

namespace Sys2Proof.Machine

/-! ## Addresses and targets -/

/-- The effective address x[rs] + sext(imm16), modulo 2^32 (46_loadstore.md R440, 20_memory.md R114). -/
def State.effAddr (s : State) (rs : Gpr) (imm : BitVec 16) : Word :=
  s.readGpr rs + imm.signExtend 32

/-- The relative target npc + (sext(imm16) << 2), modulo 2^32 (41_control_flow.md R262). -/
def State.relTarget (s : State) (imm : BitVec 16) : Word := s.npc + (imm.signExtend 32 <<< 2)

/-- The region target npc[31:28] ++ imm26 ++ 00 (41_control_flow.md R263). -/
def State.regionTarget (s : State) (imm : BitVec 26) : Word :=
  s.npc.extractLsb' 28 4 ++ imm ++ 0#2

/-- The address of the table entry of ijmp: (base | zext(imm12)) + index * `IJMP_SCALE`
(42_compact.md R293). -/
def tableEntry (base : Word) (imm : BitVec 12) (index : Word) : Word :=
  (base ||| imm.setWidth 32) + index * Config.ijmpScale

/-- The aligned word that holds an address (20_memory.md R109). -/
def alignedWord (ea : Word) : Word := ea &&& 0xFFFFFFFC#32

/-! ## Shifts, rotates and fields -/

/-- The amount of a shift by register: the low 5 bits (40_integer.md R222). -/
def shiftAmount (v : Word) : Nat := (v.extractLsb' 0 5).toNat

/-- Rotation to the right by 0 to 31 (40_integer.md R225). -/
def rotateRight (v : Word) (n : Nat) : Word := (v >>> n) ||| (v <<< (32 - n))

/-- How many of the bits n-1, n-2, …, 0 are 0 before the first 1. -/
def zerosBelow (v : Word) : Nat → Nat
  | 0 => 0
  | n + 1 => if v.getLsbD n then 0 else zerosBelow v n + 1

/-- The number of consecutive 0 bits from bit 31 down, 32 for 0 (40_integer.md R231). -/
def leadingZeros (v : Word) : Word := BitVec.ofNat 32 (zerosBelow v 32)

/-- zext(v[pos+size-1 : pos]) (40_integer.md R234). -/
def bitField (v : Word) (pos size : Nat) : Word := (v.extractLsb' pos size).setWidth 32

/-- The field of ext must end at bit 31 or below (40_integer.md R234, 60_exceptions.md R491). -/
def checkField (pos size : Nat) : Attempt Unit :=
  if 32 < pos + size then .error (.trap .illegalExtField) else .ok ()

/-- The value of slt, sltu, slti and sltiu: exactly 1 or 0 (40_integer.md R211). -/
def wordOfBool (b : Bool) : Word := if b then 1#32 else 0#32

/-- The result of ldi: the low 14 bits replaced (42_compact.md R294). -/
def setLow14 (old : Word) (imm : BitVec 14) : Word := (old &&& 0xFFFFC000#32) ||| imm.setWidth 32

/-- The result of ldihi: the upper 18 bits replaced (42_compact.md R295). -/
def setHigh18 (old : Word) (imm : BitVec 18) : Word :=
  (imm.setWidth 32 <<< 14) ||| (old &&& 0x00003FFF#32)

/-! ## Products and quotients -/

/-- The 64-bit pattern of the signed product (40_integer.md R202). -/
def signedProduct (a b : Word) : DWord := BitVec.ofInt 64 (a.toInt * b.toInt)

/-- The 64-bit pattern of the unsigned product (40_integer.md R202). -/
def unsignedProduct (a b : Word) : DWord := BitVec.ofNat 64 (a.toNat * b.toNat)

/-- The low word of a 64-bit pattern. -/
def lowWord (p : DWord) : Word := p.extractLsb' 0 32

/-- The high word of a 64-bit pattern. -/
def highWord (p : DWord) : Word := p.extractLsb' 32 32

/-- The signed quotient, rounded toward zero (40_integer.md R203). -/
def signedQuotient (a b : Word) : Word := BitVec.ofInt 32 (a.toInt.tdiv b.toInt)

/-- The signed remainder, with the sign of the dividend (40_integer.md R203). -/
def signedRemainder (a b : Word) : Word := BitVec.ofInt 32 (a.toInt.tmod b.toInt)

/-- The unsigned quotient, rounded down (40_integer.md R203). -/
def unsignedQuotient (a b : Word) : Word := BitVec.ofNat 32 (a.toNat / b.toNat)

/-- The unsigned remainder (40_integer.md R203). -/
def unsignedRemainder (a b : Word) : Word := BitVec.ofNat 32 (a.toNat % b.toNat)

/-- A divisor must not be 0 (60_exceptions.md R485). -/
def checkDivisor (b : Word) : Attempt Unit :=
  if b = 0#32 then .error (.trap .divideByZero) else .ok ()

/-- The signed quotient must fit (60_exceptions.md R486). -/
def checkQuotient (a b : Word) : Attempt Unit :=
  if a = 0x80000000#32 ∧ b = 0xFFFFFFFF#32 then .error (.trap .divideOverflow) else .ok ()

/-! ## The unaligned merges -/

/-- The shift of ldwl and stwl: (ea & 3) * 8 (46_loadstore.md R447). -/
def leftShift (ea : Word) : Nat := (ea &&& 3#32).toNat * 8

/-- The shift of ldwr and stwr: (3 - (ea & 3)) * 8 (46_loadstore.md R448). -/
def rightShift (ea : Word) : Nat := (3 - (ea &&& 3#32).toNat) * 8

/-- The mask 2^sh - 1. -/
def lowMask (sh : Nat) : Word := BitVec.ofNat 32 (2 ^ sh - 1)

/-- The result of ldwl from the aligned word `w` (46_loadstore.md R447). -/
def mergeLoadLeft (ea w old : Word) : Word :=
  (w <<< leftShift ea) ||| (old &&& lowMask (leftShift ea))

/-- The result of ldwr from the aligned word `w` (46_loadstore.md R448). -/
def mergeLoadRight (ea w old : Word) : Word :=
  (w >>> rightShift ea) ||| (old &&& ~~~(0xFFFFFFFF#32 >>> rightShift ea))

/-- The aligned word stwl leaves, from the register and the word `m` (46_loadstore.md R452). -/
def mergeStoreLeft (ea v m : Word) : Word :=
  (v >>> leftShift ea) ||| (m &&& ~~~(0xFFFFFFFF#32 >>> leftShift ea))

/-- The aligned word stwr leaves, from the register and the word `m` (46_loadstore.md R453). -/
def mergeStoreRight (ea v m : Word) : Word :=
  (v <<< rightShift ea) ||| (m &&& lowMask (rightShift ea))

end Sys2Proof.Machine
end

