-- ==== Sys2Proof/Machine/Control.lean ====
section
/-! DEFINITION. The meanings of the control transfers (41_control_flow.md). A transfer names its next pc
and takes effect at once: there are no delay slots (R261). -/

namespace Sys2Proof.Machine

/-- The link: x[31] <- npc (41_control_flow.md R264). -/
def State.link (s : State) : State := s.writeGpr Config.linkReg s.npc

/-- A conditional branch: the relative target if the condition holds, else npc
(41_control_flow.md R262). -/
def branch (i : Instr) (s : State) (taken : Attempt Bool) (imm : BitVec 16) : Result :=
  transfer i s do
    let b ← taken
    pure (s, if b then s.relTarget imm else s.npc)

/-- jump: to the region target (41_control_flow.md R267). -/
def execJump (imm : BitVec 26) (s : State) : Result :=
  transfer (.jump imm) s (.ok (s, s.regionTarget imm))

/-- call: link, to the region target (41_control_flow.md R268). -/
def execCall (imm : BitVec 26) (s : State) : Result :=
  transfer (.call imm) s (.ok (s.link, s.regionTarget imm))

/-- jumpr: to x[rs] (41_control_flow.md R269). -/
def execJumpr (rs : Gpr) (s : State) : Result :=
  transfer (.jumpr rs) s (.ok (s, s.readGpr rs))

/-- callr: link, to the old x[rs] (41_control_flow.md R270). -/
def execCallr (rs : Gpr) (s : State) : Result :=
  transfer (.callr rs) s (.ok (s.link, s.readGpr rs))

/-- jeq: branch if x[rs] = x[rt] (41_control_flow.md R271). -/
def execJeq (rs rt : Gpr) (imm : BitVec 16) (s : State) : Result :=
  branch (.jeq rs rt imm) s (.ok (decide (s.readGpr rs = s.readGpr rt))) imm

/-- jne: branch if x[rs] differs from x[rt] (41_control_flow.md R272). -/
def execJne (rs rt : Gpr) (imm : BitVec 16) (s : State) : Result :=
  branch (.jne rs rt imm) s (.ok (decide (s.readGpr rs ≠ s.readGpr rt))) imm

/-- jlez: branch if x[rs] ≤ 0, signed (41_control_flow.md R273). -/
def execJlez (rs : Gpr) (imm : BitVec 16) (s : State) : Result :=
  branch (.jlez rs imm) s (.ok (decide ((s.readGpr rs).toInt ≤ 0))) imm

/-- jgtz: branch if x[rs] > 0, signed (41_control_flow.md R274). -/
def execJgtz (rs : Gpr) (imm : BitVec 16) (s : State) : Result :=
  branch (.jgtz rs imm) s (.ok (decide (0 < (s.readGpr rs).toInt))) imm

/-- jltz: branch if x[rs] < 0, signed (41_control_flow.md R275). -/
def execJltz (rs : Gpr) (imm : BitVec 16) (s : State) : Result :=
  branch (.jltz rs imm) s (.ok (decide ((s.readGpr rs).toInt < 0))) imm

/-- jgez: branch if x[rs] ≥ 0, signed (41_control_flow.md R276). -/
def execJgez (rs : Gpr) (imm : BitVec 16) (s : State) : Result :=
  branch (.jgez rs imm) s (.ok (decide (0 ≤ (s.readGpr rs).toInt))) imm

/-- bc1t: branch if cc is 1 (41_control_flow.md R277). -/
def execBc1t (imm : BitVec 16) (s : State) : Result :=
  branch (.bc1t imm) s s.readCc imm

/-- bc1f: branch if cc is 0 (41_control_flow.md R278). -/
def execBc1f (imm : BitVec 16) (s : State) : Result :=
  branch (.bc1f imm) s (s.readCc.map not) imm

end Sys2Proof.Machine
end

