-- ==== Sys2Proof/Machine/Compact.lean ====
section
/-! DEFINITION. The meanings of the compact family (42_compact.md), whose halves talk through the
pending registers `ldireg` and `ijmpreg` (R290). -/

namespace Sys2Proof.Machine

/-- rcall: link, to the relative target (42_compact.md R291). -/
def execRcall (imm : BitVec 16) (s : State) : Result :=
  transfer (.rcall imm) s (.ok (s.link, s.relTarget imm))

/-- ijmphi: ijmpreg <- imm20 << 12 (42_compact.md R292). -/
def execIjmphi (imm : BitVec 20) (s : State) : Result :=
  complete (.ijmphi imm) s (.ok { s with ijmpreg := .wrote (imm ++ 0#12) })

/-- ijmp: to the word in the table entry (42_compact.md R293). -/
def execIjmp (rs : Gpr) (imm : BitVec 12) (s : State) : Result :=
  transfer (.ijmp rs imm) s do
    let base ← s.readIjmpreg
    let a := tableEntry base imm (s.readGpr rs)
    checkAligned a 4
    let t ← s.loadWord a
    pure (s, t)

/-- ldi: the low 14 bits of x[rt], and ldireg <- rt (42_compact.md R294). -/
def execLdi (rt : Gpr) (imm : BitVec 14) (s : State) : Result :=
  complete (.ldi rt imm) s
    (.ok { s.writeGpr rt (setLow14 (s.readGpr rt) imm) with ldireg := .wrote rt })

/-- ldihi: the upper 18 bits of x[ldireg] (42_compact.md R295). -/
def execLdihi (imm : BitVec 18) (s : State) : Result :=
  complete (.ldihi imm) s do
    let r ← s.readLdireg
    pure (s.writeGpr r (setHigh18 (s.readGpr r) imm))

end Sys2Proof.Machine
end

