-- ==== Sys2Proof/Machine/Float.lean ====
section
/-! DEFINITION. IEEE 754 binary32 and binary64 arithmetic, exact: a finite value is a sign and a
natural number of the format's smallest positive unit, every operation computes an exact
non-negative rational number of such units, and one function rounds it to nearest, ties to even
(44_fp_arith.md R330 to R335; log 22). -/

namespace Sys2Proof.Machine

/-- A binary format. The smallest positive value is 2 to the minus `unitLog`. -/
structure Fmt where
  /-- Fraction bits. -/
  fracBits : Nat
  /-- The exponent field of infinities and NaNs. -/
  expMax   : Nat
  /-- The smallest positive value is 2 to the minus this. -/
  unitLog  : Nat
  deriving DecidableEq, Repr

/-- binary32. -/
def Fmt.single : Fmt := ⟨23, 255, 149⟩

/-- binary64. -/
def Fmt.double : Fmt := ⟨52, 2047, 1074⟩

/-- The number of units in 1. -/
def Fmt.one (f : Fmt) : Nat := 2 ^ f.unitLog

/-- The pattern of +infinity, without the sign bit. -/
def Fmt.infMag (f : Fmt) : Nat := f.expMax * 2 ^ f.fracBits

/-- The weight of the sign bit. -/
def Fmt.signBit (f : Fmt) : Nat := (f.expMax + 1) * 2 ^ f.fracBits

/-- The value of a pattern: a NaN, an infinity, or a sign and a number of units. -/
inductive FpVal where
  | nan
  | inf (neg : Bool)
  | fin (neg : Bool) (mag : Nat)
  deriving DecidableEq, Repr

/-- The number of units of a finite pattern without its sign bit. -/
def Fmt.magOf (f : Fmt) (p : Nat) : Nat :=
  let e := p / 2 ^ f.fracBits
  let frac := p % 2 ^ f.fracBits
  if e = 0 then frac else (2 ^ f.fracBits + frac) * 2 ^ (e - 1)

/-- The value of a pattern (44_fp_arith.md R330, R333). -/
def Fmt.value (f : Fmt) (bits : Nat) : FpVal :=
  let neg := decide (bits / f.signBit % 2 = 1)
  let p := bits % f.signBit
  if p < f.infMag then .fin neg (f.magOf p) else if p = f.infMag then .inf neg else .nan

/-- A pattern from a sign and the rest. -/
def Fmt.pattern (f : Fmt) (neg : Bool) (p : Nat) : Nat := (if neg then f.signBit else 0) + p

/-- The natural number nearest to num/den, ties to even (44_fp_arith.md R331). -/
def roundTiesEven (num den : Nat) : Nat :=
  let q := num / den
  let r := num % den
  if den < 2 * r ∨ (2 * r = den ∧ q % 2 = 1) then q + 1 else q

/-- The pattern, without sign, nearest to num/den units, ties to even. From 2^(fracBits+1) units up
the patterns are 2^s units apart, where s is how many bits the integer part has beyond
fracBits+1; the pattern of r steps of 2^s is s*2^fracBits + r. A result past the largest finite
pattern is an infinity (44_fp_arith.md R331, R333, R334). -/
def Fmt.round (f : Fmt) (num den : Nat) : Nat :=
  let s := Nat.log2 (num / den) - f.fracBits
  min (s * 2 ^ f.fracBits + roundTiesEven num (den * 2 ^ s)) f.infMag

/-- The rounded pattern of a signed value, `none` for a NaN, whose pattern the caller takes from
`nanOf` (44_fp_arith.md R332). -/
abbrev FpResult := Option Nat

/-- A signed number of units as an integer; -0 and +0 are 0. -/
def signed (neg : Bool) (mag : Nat) : Int := if neg then -(mag : Int) else mag

/-- The rounding of an exact sum of num/den units; an exact zero is -0 only when both addends are
negative (44_fp_arith.md R335). -/
def Fmt.roundSum (f : Fmt) (num : Int) (den : Nat) (bothNeg : Bool) : Nat :=
  if num = 0 then f.pattern bothNeg 0
  else f.pattern (decide (num < 0)) (f.round num.natAbs den)

/-- The value with its sign flipped; a NaN stays one. -/
def FpVal.negate : FpVal → FpVal
  | .nan => .nan
  | .inf n => .inf (!n)
  | .fin n m => .fin (!n) m

/-- Sum (44_fp_arith.md R336, R337). -/
def Fmt.add (f : Fmt) : FpVal → FpVal → FpResult
  | .nan, _ => none
  | _, .nan => none
  | .inf n, .inf n' => if n = n' then some (f.pattern n f.infMag) else none
  | .inf n, .fin _ _ => some (f.pattern n f.infMag)
  | .fin _ _, .inf n => some (f.pattern n f.infMag)
  | .fin n m, .fin n' m' => some (f.roundSum (signed n m + signed n' m') 1 (n && n'))

/-- Difference (44_fp_arith.md R338, R339), the sum with the negated second operand, so an exact zero is
-0 for (-0) - (+0) alone. DEDUCED: the operands of opposite sign of R335 are the addends of that sum, as
in the IEEE 754 section it is taken from and in the vector V104, which cites it for x - x (log 31). -/
def Fmt.sub (f : Fmt) (a b : FpVal) : FpResult := f.add a b.negate

/-- Product (44_fp_arith.md R340, R341): a product of two numbers of units is a number of units of
units. -/
def Fmt.mul (f : Fmt) : FpVal → FpVal → FpResult
  | .nan, _ => none
  | _, .nan => none
  | .inf n, .inf n' => some (f.pattern (n != n') f.infMag)
  | .inf n, .fin n' m => if m = 0 then none else some (f.pattern (n != n') f.infMag)
  | .fin n m, .inf n' => if m = 0 then none else some (f.pattern (n != n') f.infMag)
  | .fin n m, .fin n' m' => some (f.pattern (n != n') (f.round (m * m') f.one))

/-- Quotient (44_fp_arith.md R342, R343); a finite non-zero value divided by zero is an infinity
(R334). -/
def Fmt.div (f : Fmt) : FpVal → FpVal → FpResult
  | .nan, _ => none
  | _, .nan => none
  | .inf _, .inf _ => none
  | .inf n, .fin n' _ => some (f.pattern (n != n') f.infMag)
  | .fin n _, .inf n' => some (f.pattern (n != n') 0)
  | .fin n m, .fin n' m' =>
    if m' = 0 then (if m = 0 then none else some (f.pattern (n != n') f.infMag))
    else some (f.pattern (n != n') (f.round (m * f.one) m'))

/-- One bit of an integer square root: `r` is the root of n/4, rounded down. -/
def sqrtStep (n r : Nat) : Nat := if (2 * r + 1) * (2 * r + 1) ≤ n then 2 * r + 1 else 2 * r

/-- The square root rounded down, for n below 4^fuel. -/
def intSqrt : Nat → Nat → Nat
  | 0, _ => 0
  | fuel + 1, n => sqrtStep n (intSqrt fuel (n / 4))

/-- Square root (44_fp_arith.md R344, R345). The root of m units is the root of the integer
x = m*2^unitLog, in units. The root `r` of x/4^k has fracBits+3 bits or more. When r*2^k is not the
root itself, the root lies strictly between r*2^k and (r+1)*2^k, and so does the middle that is
rounded in its place: no rounding boundary lies between the two. -/
def Fmt.sqrt (f : Fmt) : FpVal → FpResult
  | .nan => none
  | .inf n => if n then none else some (f.pattern false f.infMag)
  | .fin n m =>
    if m = 0 then some (f.pattern n 0)
    else if n then none
    else
      let x := m * f.one
      let k := Nat.log2 x / 2 - (f.fracBits + 2)
      let r := intSqrt (f.fracBits + 5) (x / 4 ^ k)
      some (f.pattern false (f.round ((if r * r * 4 ^ k = x then 2 * r else 2 * r + 1) * 2 ^ k) 2))

/-- Fused a*b + c with one rounding of the exact value (44_fp_arith.md R352, R353; the sign of an
exact zero as for a sum, log 27). -/
def Fmt.fma (f : Fmt) : FpVal → FpVal → FpVal → FpResult
  | .nan, _, _ => none
  | _, .nan, _ => none
  | _, _, .nan => none
  | .fin n m, .fin n' m', .fin n'' m'' =>
    some (f.roundSum (signed (n != n') (m * m') + signed n'' (m'' * f.one)) f.one ((n != n') && n''))
  | .fin _ _, .fin _ _, .inf n => some (f.pattern n f.infMag)
  | .inf n, .inf n', c => f.add (.inf (n != n')) c
  | .inf n, .fin n' m, c => if m = 0 then none else f.add (.inf (n != n')) c
  | .fin n m, .inf n', c => if m = 0 then none else f.add (.inf (n != n')) c

/-- The value of one format rounded into another (45_fp_compare_convert.md R404, R405); exact when
the target has every value of the source. -/
def Fmt.convert (src dst : Fmt) : FpVal → FpResult
  | .nan => none
  | .inf n => some (dst.pattern n dst.infMag)
  | .fin n m => some (dst.pattern n (dst.round (m * dst.one) src.one))

/-- An integer rounded into a format (45_fp_compare_convert.md R406, R407). -/
def Fmt.ofInt (f : Fmt) (z : Int) : Nat :=
  f.pattern (decide (z < 0)) (f.round (z.natAbs * f.one) 1)

/-- A finite value rounded to an integer (45_fp_compare_convert.md R403). -/
def Fmt.toInt (f : Fmt) (mode : WordRounding) (neg : Bool) (mag : Nat) : Int :=
  match mode with
  | .truncate => signed neg (mag / f.one)
  | .nearestEven => signed neg (roundTiesEven mag f.one)
  | .ceiling => if neg then -((mag / f.one : Nat) : Int) else (((mag + f.one - 1) / f.one : Nat) : Int)
  | .floor => if neg then -(((mag + f.one - 1) / f.one : Nat) : Int) else ((mag / f.one : Nat) : Int)

/-- The word a value converts to, `none` where the result is `cvtWInvalid`: a NaN, an infinity, or an
integer outside -2^31 to 2^31 - 1 (45_fp_compare_convert.md R403). -/
def Fmt.toWord (f : Fmt) (mode : WordRounding) : FpVal → Option Word
  | .nan => none
  | .inf _ => none
  | .fin n m =>
    let z := f.toInt mode n m
    if -2 ^ 31 ≤ z ∧ z ≤ 2 ^ 31 - 1 then some (BitVec.ofInt 32 z) else none

/-- Numeric a ≤ b; false when either is a NaN (45_fp_compare_convert.md R380). -/
def FpVal.le : FpVal → FpVal → Bool
  | .nan, _ => false
  | _, .nan => false
  | .inf n, .inf n' => n || !n'
  | .inf n, .fin _ _ => n
  | .fin _ _, .inf n => !n
  | .fin n m, .fin n' m' => decide (signed n m ≤ signed n' m')

/-- The value of a single's pattern. -/
def valueS (b : Word) : FpVal := Fmt.single.value b.toNat

/-- The value of a double's pattern. -/
def valueD (b : DWord) : FpVal := Fmt.double.value b.toNat

/-- The pattern of a single NaN. -/
def nan32Bits (n : Nan32) : Word :=
  BitVec.ofNat 32 (Fmt.single.pattern n.neg (Fmt.single.infMag + (n.below.val + 1)))

/-- The pattern of a double NaN. -/
def nan64Bits (n : Nan64) : DWord :=
  BitVec.ofNat 64 (Fmt.double.pattern n.neg (Fmt.double.infMag + (n.below.val + 1)))

/-- The pattern of a single result: the rounded one, or for a NaN the one `nanOf` gives
(44_fp_arith.md R332). -/
def resultS (op : NanOp) (operands : List FpPattern) : FpResult → Word
  | some p => BitVec.ofNat 32 p
  | none => nan32Bits (Config.nanOfS op operands)

/-- The pattern of a double result (44_fp_arith.md R332). -/
def resultD (op : NanOp) (operands : List FpPattern) : FpResult → DWord
  | some p => BitVec.ofNat 64 p
  | none => nan64Bits (Config.nanOfD op operands)

/-- The word of a float-to-word conversion, or `cvtWInvalid` (45_fp_compare_convert.md R403). -/
def resultW (op : ToWordOp) (operand : FpPattern) : Option Word → Word
  | some w => w
  | none => Config.cvtWInvalid op operand

end Sys2Proof.Machine
end

