-- ==== Sys2Proof/Machine/Flags.lean ====
section
/-! DEFINITION. The one flag of the block, cc: the predicates the comparisons write to it
(45_fp_compare_convert.md R380) and the shared form of a comparison. Integer operations set no flag
(10_state.md R49). -/

namespace Sys2Proof.Machine

/-- EQ: both operands non-NaN and numerically equal (45_fp_compare_convert.md R380). -/
def FpVal.eq (a b : FpVal) : Bool := a.le b && b.le a

/-- LT: both operands non-NaN and a < b (45_fp_compare_convert.md R380). -/
def FpVal.lt (a b : FpVal) : Bool := a.le b && !b.le a

/-- UN: one operand at least is a NaN (45_fp_compare_convert.md R380). -/
def FpVal.unordered (a b : FpVal) : Bool := decide (a = .nan) || decide (b = .nan)

/-- A comparison of singles: cc <- the predicate of the operands (45_fp_compare_convert.md R380). -/
def compareS (i : Instr) (s : State) (p : FpVal → FpVal → Bool) (fs ft : Fpr) : Result :=
  complete i s do
    let a ← s.readS fs
    let b ← s.readS ft
    pure (s.writeCc (p (valueS a) (valueS b)))

/-- A comparison of doubles: cc <- the predicate of the operands (45_fp_compare_convert.md R380). -/
def compareD (i : Instr) (s : State) (p : FpVal → FpVal → Bool) (fs ft : Fpr) : Result :=
  complete i s do
    checkDouble fs
    checkDouble ft
    let a ← s.readD fs
    let b ← s.readD ft
    pure (s.writeCc (p (valueD a) (valueD b)))

end Sys2Proof.Machine
end

