-- ==== Sys2Proof/Machine/FpArith.lean ====
section
/-! DEFINITION. The meanings of the floating-point arithmetic instructions (44_fp_arith.md). Each checks
its double indices, reads its slots, computes one rounded result and writes its destination (R330).
No instruction raises a fault for a value or sets a flag (R334). -/

namespace Sys2Proof.Machine

/-- Single arithmetic with two sources (44_fp_arith.md R330). -/
def arithS (i : Instr) (s : State) (op : NanOp) (f : FpVal → FpVal → FpResult) (fd fs ft : Fpr) :
    Result :=
  complete i s do
    let a ← s.readS fs
    let b ← s.readS ft
    pure (s.writeS fd (resultS op [.single a, .single b] (f (valueS a) (valueS b))))

/-- Double arithmetic with two sources (44_fp_arith.md R330). -/
def arithD (i : Instr) (s : State) (op : NanOp) (f : FpVal → FpVal → FpResult) (fd fs ft : Fpr) :
    Result :=
  complete i s do
    checkDouble fd
    checkDouble fs
    checkDouble ft
    let a ← s.readD fs
    let b ← s.readD ft
    pure (s.writeD fd (resultD op [.double a, .double b] (f (valueD a) (valueD b))))

/-- A single fused product-sum (44_fp_arith.md R352, R354). -/
def fusedS (i : Instr) (s : State) (op : NanOp) (f : FpVal → FpVal → FpVal → FpResult)
    (fd fr fs ft : Fpr) : Result :=
  complete i s do
    let a ← s.readS fs
    let b ← s.readS ft
    let c ← s.readS fr
    pure (s.writeS fd
      (resultS op [.single c, .single a, .single b] (f (valueS a) (valueS b) (valueS c))))

/-- A double fused product-sum (44_fp_arith.md R353, R355). -/
def fusedD (i : Instr) (s : State) (op : NanOp) (f : FpVal → FpVal → FpVal → FpResult)
    (fd fr fs ft : Fpr) : Result :=
  complete i s do
    checkDouble fd
    checkDouble fr
    checkDouble fs
    checkDouble ft
    let a ← s.readD fs
    let b ← s.readD ft
    let c ← s.readD fr
    pure (s.writeD fd
      (resultD op [.double c, .double a, .double b] (f (valueD a) (valueD b) (valueD c))))

/-- An operation on the pattern of a single (44_fp_arith.md R346, R348, R350). -/
def patternS (i : Instr) (s : State) (f : Word → Word) (fd fs : Fpr) : Result :=
  complete i s do
    let a ← s.readS fs
    pure (s.writeS fd (f a))

/-- An operation on the pattern of a double (44_fp_arith.md R347, R349, R351). -/
def patternD (i : Instr) (s : State) (f : DWord → DWord) (fd fs : Fpr) : Result :=
  complete i s do
    checkDouble fd
    checkDouble fs
    let a ← s.readD fs
    pure (s.writeD fd (f a))

/-- Square root of a single pattern (44_fp_arith.md R344). -/
def sqrtPatternS (a : Word) : Word := resultS .sqrtS [.single a] (Fmt.single.sqrt (valueS a))

/-- Square root of a double pattern (44_fp_arith.md R345). -/
def sqrtPatternD (a : DWord) : DWord := resultD .sqrtD [.double a] (Fmt.double.sqrt (valueD a))

/-- The fused difference a*b - c (44_fp_arith.md R354, R355). -/
def Fmt.fms (f : Fmt) (a b c : FpVal) : FpResult := f.fma a b c.negate

/-- add.s: the rounded sum (44_fp_arith.md R336). -/
def execAddS (fd fs ft : Fpr) (s : State) : Result :=
  arithS (.addS fd fs ft) s .addS Fmt.single.add fd fs ft

/-- add.d: the rounded sum (44_fp_arith.md R337). -/
def execAddD (fd fs ft : Fpr) (s : State) : Result :=
  arithD (.addD fd fs ft) s .addD Fmt.double.add fd fs ft

/-- sub.s: the rounded difference (44_fp_arith.md R338). -/
def execSubS (fd fs ft : Fpr) (s : State) : Result :=
  arithS (.subS fd fs ft) s .subS Fmt.single.sub fd fs ft

/-- sub.d: the rounded difference (44_fp_arith.md R339). -/
def execSubD (fd fs ft : Fpr) (s : State) : Result :=
  arithD (.subD fd fs ft) s .subD Fmt.double.sub fd fs ft

/-- mul.s: the rounded product (44_fp_arith.md R340). -/
def execMulS (fd fs ft : Fpr) (s : State) : Result :=
  arithS (.mulS fd fs ft) s .mulS Fmt.single.mul fd fs ft

/-- mul.d: the rounded product (44_fp_arith.md R341). -/
def execMulD (fd fs ft : Fpr) (s : State) : Result :=
  arithD (.mulD fd fs ft) s .mulD Fmt.double.mul fd fs ft

/-- div.s: the rounded quotient (44_fp_arith.md R342). -/
def execDivS (fd fs ft : Fpr) (s : State) : Result :=
  arithS (.divS fd fs ft) s .divS Fmt.single.div fd fs ft

/-- div.d: the rounded quotient (44_fp_arith.md R343). -/
def execDivD (fd fs ft : Fpr) (s : State) : Result :=
  arithD (.divD fd fs ft) s .divD Fmt.double.div fd fs ft

/-- sqrt.s: the rounded square root (44_fp_arith.md R344). -/
def execSqrtS (fd fs : Fpr) (s : State) : Result :=
  patternS (.sqrtS fd fs) s sqrtPatternS fd fs

/-- sqrt.d: the rounded square root (44_fp_arith.md R345). -/
def execSqrtD (fd fs : Fpr) (s : State) : Result :=
  patternD (.sqrtD fd fs) s sqrtPatternD fd fs

/-- abs.s: the sign bit cleared (44_fp_arith.md R346). -/
def execAbsS (fd fs : Fpr) (s : State) : Result :=
  patternS (.absS fd fs) s (· &&& 0x7FFFFFFF#32) fd fs

/-- abs.d: the sign bit cleared (44_fp_arith.md R347). -/
def execAbsD (fd fs : Fpr) (s : State) : Result :=
  patternD (.absD fd fs) s (· &&& 0x7FFFFFFFFFFFFFFF#64) fd fs

/-- neg.s: the sign bit flipped (44_fp_arith.md R348). -/
def execNegS (fd fs : Fpr) (s : State) : Result :=
  patternS (.negS fd fs) s (· ^^^ 0x80000000#32) fd fs

/-- neg.d: the sign bit flipped (44_fp_arith.md R349). -/
def execNegD (fd fs : Fpr) (s : State) : Result :=
  patternD (.negD fd fs) s (· ^^^ 0x8000000000000000#64) fd fs

/-- mov.s: an exact copy (44_fp_arith.md R350). -/
def execMovS (fd fs : Fpr) (s : State) : Result :=
  patternS (.movS fd fs) s id fd fs

/-- mov.d: an exact copy (44_fp_arith.md R351). -/
def execMovD (fd fs : Fpr) (s : State) : Result :=
  patternD (.movD fd fs) s id fd fs

/-- madd.s: fs * ft + fr with one rounding (44_fp_arith.md R352). -/
def execMaddS (fd fr fs ft : Fpr) (s : State) : Result :=
  fusedS (.maddS fd fr fs ft) s .maddS Fmt.single.fma fd fr fs ft

/-- madd.d: fs * ft + fr with one rounding (44_fp_arith.md R353). -/
def execMaddD (fd fr fs ft : Fpr) (s : State) : Result :=
  fusedD (.maddD fd fr fs ft) s .maddD Fmt.double.fma fd fr fs ft

/-- msub.s: fs * ft - fr with one rounding (44_fp_arith.md R354). -/
def execMsubS (fd fr fs ft : Fpr) (s : State) : Result :=
  fusedS (.msubS fd fr fs ft) s .msubS Fmt.single.fms fd fr fs ft

/-- msub.d: fs * ft - fr with one rounding (44_fp_arith.md R355). -/
def execMsubD (fd fr fs ft : Fpr) (s : State) : Result :=
  fusedD (.msubD fd fr fs ft) s .msubD Fmt.double.fms fd fr fs ft

end Sys2Proof.Machine
end

