-- ==== Sys2Proof/Machine/FpMove.lean ====
section
/-! DEFINITION. The meanings of the floating-point comparisons, conditional moves, conversions and raw
transfers (45_fp_compare_convert.md). -/

namespace Sys2Proof.Machine

/-! ## Comparisons -/

/-- c.eq.s: cc <- EQ, ordered (45_fp_compare_convert.md R381). -/
def execCEqS (fs ft : Fpr) (s : State) : Result :=
  compareS (.cEqS fs ft) s FpVal.eq fs ft

/-- c.eq.d: cc <- EQ, ordered (45_fp_compare_convert.md R382). -/
def execCEqD (fs ft : Fpr) (s : State) : Result :=
  compareD (.cEqD fs ft) s FpVal.eq fs ft

/-- c.ole.s: cc <- LE, ordered (45_fp_compare_convert.md R383). -/
def execCOleS (fs ft : Fpr) (s : State) : Result :=
  compareS (.cOleS fs ft) s FpVal.le fs ft

/-- c.ole.d: cc <- LE, ordered (45_fp_compare_convert.md R384). -/
def execCOleD (fs ft : Fpr) (s : State) : Result :=
  compareD (.cOleD fs ft) s FpVal.le fs ft

/-- c.olt.s: cc <- LT, ordered (45_fp_compare_convert.md R385). -/
def execCOltS (fs ft : Fpr) (s : State) : Result :=
  compareS (.cOltS fs ft) s FpVal.lt fs ft

/-- c.olt.d: cc <- LT, ordered (45_fp_compare_convert.md R386). -/
def execCOltD (fs ft : Fpr) (s : State) : Result :=
  compareD (.cOltD fs ft) s FpVal.lt fs ft

/-- c.ueq.s: cc <- EQ, the plain comparison (45_fp_compare_convert.md R387). -/
def execCUeqS (fs ft : Fpr) (s : State) : Result :=
  compareS (.cUeqS fs ft) s FpVal.eq fs ft

/-- c.ueq.d: cc <- EQ, the plain comparison (45_fp_compare_convert.md R388). -/
def execCUeqD (fs ft : Fpr) (s : State) : Result :=
  compareD (.cUeqD fs ft) s FpVal.eq fs ft

/-- c.ule.s: cc <- LE, the plain comparison (45_fp_compare_convert.md R389). -/
def execCUleS (fs ft : Fpr) (s : State) : Result :=
  compareS (.cUleS fs ft) s FpVal.le fs ft

/-- c.ule.d: cc <- LE, the plain comparison (45_fp_compare_convert.md R390). -/
def execCUleD (fs ft : Fpr) (s : State) : Result :=
  compareD (.cUleD fs ft) s FpVal.le fs ft

/-- c.ult.s: cc <- LT, the plain comparison (45_fp_compare_convert.md R391). -/
def execCUltS (fs ft : Fpr) (s : State) : Result :=
  compareS (.cUltS fs ft) s FpVal.lt fs ft

/-- c.ult.d: cc <- LT, the plain comparison (45_fp_compare_convert.md R392). -/
def execCUltD (fs ft : Fpr) (s : State) : Result :=
  compareD (.cUltD fs ft) s FpVal.lt fs ft

/-- c.un.s: cc <- UN (45_fp_compare_convert.md R393). -/
def execCUnS (fs ft : Fpr) (s : State) : Result :=
  compareS (.cUnS fs ft) s FpVal.unordered fs ft

/-- c.un.d: cc <- UN (45_fp_compare_convert.md R394). -/
def execCUnD (fs ft : Fpr) (s : State) : Result :=
  compareD (.cUnD fs ft) s FpVal.unordered fs ft

/-! ## Conditional moves -/

/-- The copy of one slot (45_fp_compare_convert.md section 2). -/
def State.copyS (s : State) (fd fs : Fpr) : Attempt State := do
  let a ← s.readS fs
  pure (s.writeS fd a)

/-- The copy of a double, both slots (45_fp_compare_convert.md section 2). -/
def State.copyD (s : State) (fd fs : Fpr) : Attempt State := do
  let a ← s.readD fs
  pure (s.writeD fd a)

/-- A conditional move of a single: the source is read only when the guard holds
(10_state.md R58). -/
def moveS (i : Instr) (s : State) (guard : Attempt Bool) (fd fs : Fpr) : Result :=
  complete i s do
    let b ← guard
    if b then s.copyS fd fs else pure s

/-- A conditional move of a double: the indices are checked whether or not the guard holds, the source
is read only when it does (45_fp_compare_convert.md section 2). -/
def moveD (i : Instr) (s : State) (guard : Attempt Bool) (fd fs : Fpr) : Result :=
  complete i s do
    checkDouble fd
    checkDouble fs
    let b ← guard
    if b then s.copyD fd fs else pure s

/-- movz.s: copy if x[rt] is 0 (45_fp_compare_convert.md R395). -/
def execMovzS (fd fs : Fpr) (rt : Gpr) (s : State) : Result :=
  moveS (.movzS fd fs rt) s (.ok (decide (s.readGpr rt = 0#32))) fd fs

/-- movz.d: copy if x[rt] is 0 (45_fp_compare_convert.md R396). -/
def execMovzD (fd fs : Fpr) (rt : Gpr) (s : State) : Result :=
  moveD (.movzD fd fs rt) s (.ok (decide (s.readGpr rt = 0#32))) fd fs

/-- movn.s: copy if x[rt] is not 0 (45_fp_compare_convert.md R397). -/
def execMovnS (fd fs : Fpr) (rt : Gpr) (s : State) : Result :=
  moveS (.movnS fd fs rt) s (.ok (decide (s.readGpr rt ≠ 0#32))) fd fs

/-- movn.d: copy if x[rt] is not 0 (45_fp_compare_convert.md R398). -/
def execMovnD (fd fs : Fpr) (rt : Gpr) (s : State) : Result :=
  moveD (.movnD fd fs rt) s (.ok (decide (s.readGpr rt ≠ 0#32))) fd fs

/-- movt.s: copy if cc is 1 (45_fp_compare_convert.md R399). -/
def execMovtS (fd fs : Fpr) (s : State) : Result :=
  moveS (.movtS fd fs) s s.readCc fd fs

/-- movt.d: copy if cc is 1 (45_fp_compare_convert.md R400). -/
def execMovtD (fd fs : Fpr) (s : State) : Result :=
  moveD (.movtD fd fs) s s.readCc fd fs

/-- movf.s: copy if cc is 0 (45_fp_compare_convert.md R401). -/
def execMovfS (fd fs : Fpr) (s : State) : Result :=
  moveS (.movfS fd fs) s (s.readCc.map not) fd fs

/-- movf.d: copy if cc is 0 (45_fp_compare_convert.md R402). -/
def execMovfD (fd fs : Fpr) (s : State) : Result :=
  moveD (.movfD fd fs) s (s.readCc.map not) fd fs

/-! ## Conversions -/

/-- cvt.d.s: widen, exact (45_fp_compare_convert.md R404). -/
def execCvtDS (fd fs : Fpr) (s : State) : Result :=
  complete (.cvtDS fd fs) s do
    checkDouble fd
    let a ← s.readS fs
    pure (s.writeD fd (resultD .cvtDS [.single a] (Fmt.single.convert Fmt.double (valueS a))))

/-- cvt.s.d: narrow, to nearest, ties to even (45_fp_compare_convert.md R405). -/
def execCvtSD (fd fs : Fpr) (s : State) : Result :=
  complete (.cvtSD fd fs) s do
    checkDouble fs
    let a ← s.readD fs
    pure (s.writeS fd (resultS .cvtSD [.double a] (Fmt.double.convert Fmt.single (valueD a))))

/-- cvt.s.w: a word to a single, to nearest, ties to even (45_fp_compare_convert.md R406). -/
def execCvtSW (fd fs : Fpr) (s : State) : Result :=
  complete (.cvtSW fd fs) s do
    let a ← s.readS fs
    pure (s.writeS fd (BitVec.ofNat 32 (Fmt.single.ofInt a.toInt)))

/-- cvt.d.w: a word to a double, exact (45_fp_compare_convert.md R407). -/
def execCvtDW (fd fs : Fpr) (s : State) : Result :=
  complete (.cvtDW fd fs) s do
    checkDouble fd
    let a ← s.readS fs
    pure (s.writeD fd (BitVec.ofNat 64 (Fmt.double.ofInt a.toInt)))

/-- The word a single converts to under a rounding, or `cvtWInvalid` (45_fp_compare_convert.md R403). -/
def wordOfS (op : ToWordOp) (mode : WordRounding) (a : Word) : Word :=
  resultW op (.single a) (Fmt.single.toWord mode (valueS a))

/-- The word a double converts to under a rounding, or `cvtWInvalid` (45_fp_compare_convert.md R403). -/
def wordOfD (op : ToWordOp) (mode : WordRounding) (a : DWord) : Word :=
  resultW op (.double a) (Fmt.double.toWord mode (valueD a))

/-- Round-to-nearest-even must be selectable (60_exceptions.md R492). -/
def State.checkRoundMode (s : State) : Attempt Unit :=
  if s.emb.roundModeSettable then .ok () else .error (.trap .roundingModeUnavailable)

/-- A conversion of a single to a word (45_fp_compare_convert.md R403). -/
def toWordS (i : Instr) (s : State) (op : ToWordOp) (mode : WordRounding) (fd fs : Fpr) : Result :=
  complete i s do
    let a ← s.readS fs
    pure (s.writeS fd (wordOfS op mode a))

/-- A conversion of a double to a word (45_fp_compare_convert.md R403). -/
def toWordD (i : Instr) (s : State) (op : ToWordOp) (mode : WordRounding) (fd fs : Fpr) : Result :=
  complete i s do
    checkDouble fs
    let a ← s.readD fs
    pure (s.writeS fd (wordOfD op mode a))

/-- cvt.w.s: by `CVT_W_MODE`, truncation (45_fp_compare_convert.md R408). -/
def execCvtWS (fd fs : Fpr) (s : State) : Result :=
  toWordS (.cvtWS fd fs) s .cvtWS Config.cvtWMode fd fs

/-- cvt.w.d: by `CVT_W_MODE`, truncation (45_fp_compare_convert.md R409). -/
def execCvtWD (fd fs : Fpr) (s : State) : Result :=
  toWordD (.cvtWD fd fs) s .cvtWD Config.cvtWMode fd fs

/-- round.w.s: to nearest, ties to even; the mode must be selectable
(45_fp_compare_convert.md R410). -/
def execRoundWS (fd fs : Fpr) (s : State) : Result :=
  complete (.roundWS fd fs) s do
    s.checkRoundMode
    let a ← s.readS fs
    pure (s.writeS fd (wordOfS .roundWS .nearestEven a))

/-- round.w.d: to nearest, ties to even; the index check comes before the mode check
(45_fp_compare_convert.md R411, 60_exceptions.md R497). -/
def execRoundWD (fd fs : Fpr) (s : State) : Result :=
  complete (.roundWD fd fs) s do
    checkDouble fs
    s.checkRoundMode
    let a ← s.readD fs
    pure (s.writeS fd (wordOfD .roundWD .nearestEven a))

/-- ceil.w.s: toward plus infinity (45_fp_compare_convert.md R412). -/
def execCeilWS (fd fs : Fpr) (s : State) : Result :=
  toWordS (.ceilWS fd fs) s .ceilWS .ceiling fd fs

/-- ceil.w.d: toward plus infinity (45_fp_compare_convert.md R413). -/
def execCeilWD (fd fs : Fpr) (s : State) : Result :=
  toWordD (.ceilWD fd fs) s .ceilWD .ceiling fd fs

/-- floor.w.s: toward minus infinity (45_fp_compare_convert.md R414). -/
def execFloorWS (fd fs : Fpr) (s : State) : Result :=
  toWordS (.floorWS fd fs) s .floorWS .floor fd fs

/-- floor.w.d: toward minus infinity (45_fp_compare_convert.md R415). -/
def execFloorWD (fd fs : Fpr) (s : State) : Result :=
  toWordD (.floorWD fd fs) s .floorWD .floor fd fs

/-- trunc.w.s: toward zero (45_fp_compare_convert.md R416). On a NaN, an infinity or a value out of range
its word is free and need not be that of cvt.w.s. DESIGN CHOICE (log 12): 00_scope.md R14 lets the
word depend on the instruction, though R416 calls the two results the same. -/
def execTruncWS (fd fs : Fpr) (s : State) : Result :=
  toWordS (.truncWS fd fs) s .truncWS .truncate fd fs

/-- trunc.w.d: toward zero (45_fp_compare_convert.md R417). -/
def execTruncWD (fd fs : Fpr) (s : State) : Result :=
  toWordD (.truncWD fd fs) s .truncWD .truncate fd fs

/-! ## Raw transfers -/

/-- mfc1: x[rt] <- f[fs] (45_fp_compare_convert.md R418). -/
def execMfc1 (rt : Gpr) (fs : Fpr) (s : State) : Result :=
  complete (.mfc1 rt fs) s do
    let a ← s.readS fs
    pure (s.writeGpr rt a)

/-- mtc1: f[fs] <- x[rt] (45_fp_compare_convert.md R419). -/
def execMtc1 (rt : Gpr) (fs : Fpr) (s : State) : Result :=
  complete (.mtc1 rt fs) s (.ok (s.writeS fs (s.readGpr rt)))

/-- mfhc1: x[rt] <- f[fs+1], the high half of a double (45_fp_compare_convert.md R420). -/
def execMfhc1 (rt : Gpr) (fs : Fpr) (s : State) : Result :=
  complete (.mfhc1 rt fs) s do
    checkDouble fs
    let a ← s.readS (fs + 1)
    pure (s.writeGpr rt a)

/-- mflc1: x[rt] <- f[fs], the low half of a double (45_fp_compare_convert.md R421). -/
def execMflc1 (rt : Gpr) (fs : Fpr) (s : State) : Result :=
  complete (.mflc1 rt fs) s do
    let a ← s.readS fs
    pure (s.writeGpr rt a)

/-- mthc1: f[fs+1] <- x[rt], the high half of a double (45_fp_compare_convert.md R422). -/
def execMthc1 (rt : Gpr) (fs : Fpr) (s : State) : Result :=
  complete (.mthc1 rt fs) s do
    checkDouble fs
    pure (s.writeS (fs + 1) (s.readGpr rt))

/-- mtlc1: f[fs] <- x[rt], the low half of a double (45_fp_compare_convert.md R423). -/
def execMtlc1 (rt : Gpr) (fs : Fpr) (s : State) : Result :=
  complete (.mtlc1 rt fs) s (.ok (s.writeS fs (s.readGpr rt)))

end Sys2Proof.Machine
end

