-- ==== Sys2Proof/Machine/Integer.lean ====
section
/-! DEFINITION. The meanings of the integer instructions (40_integer.md). Each reads its operands from
the state it began in, writes at most its destinations and leaves pc <- npc (R200). -/

namespace Sys2Proof.Machine

/-- add: x[rd] <- x[rs] + x[rt], wrapping (40_integer.md R205). -/
def execAdd (rd rs rt : Gpr) (s : State) : Result :=
  complete (.add rd rs rt) s (.ok (s.writeGpr rd (s.readGpr rs + s.readGpr rt)))

/-- sub: x[rd] <- x[rs] - x[rt], wrapping (40_integer.md R206). -/
def execSub (rd rs rt : Gpr) (s : State) : Result :=
  complete (.sub rd rs rt) s (.ok (s.writeGpr rd (s.readGpr rs - s.readGpr rt)))

/-- and: x[rd] <- x[rs] & x[rt] (40_integer.md R207). -/
def execAnd (rd rs rt : Gpr) (s : State) : Result :=
  complete (.and rd rs rt) s (.ok (s.writeGpr rd (s.readGpr rs &&& s.readGpr rt)))

/-- or: x[rd] <- x[rs] | x[rt] (40_integer.md R208). -/
def execOr (rd rs rt : Gpr) (s : State) : Result :=
  complete (.or rd rs rt) s (.ok (s.writeGpr rd (s.readGpr rs ||| s.readGpr rt)))

/-- xor: x[rd] <- x[rs] ^ x[rt] (40_integer.md R209). -/
def execXor (rd rs rt : Gpr) (s : State) : Result :=
  complete (.xor rd rs rt) s (.ok (s.writeGpr rd (s.readGpr rs ^^^ s.readGpr rt)))

/-- nor: x[rd] <- ~(x[rs] | x[rt]) (40_integer.md R210). -/
def execNor (rd rs rt : Gpr) (s : State) : Result :=
  complete (.nor rd rs rt) s (.ok (s.writeGpr rd (~~~(s.readGpr rs ||| s.readGpr rt))))

/-- slt: set on less than, signed (40_integer.md R211). -/
def execSlt (rd rs rt : Gpr) (s : State) : Result :=
  complete (.slt rd rs rt) s (.ok (s.writeGpr rd (wordOfBool ((s.readGpr rs).slt (s.readGpr rt)))))

/-- sltu: set on less than, unsigned (40_integer.md R212). -/
def execSltu (rd rs rt : Gpr) (s : State) : Result :=
  complete (.sltu rd rs rt) s (.ok (s.writeGpr rd (wordOfBool ((s.readGpr rs).ult (s.readGpr rt)))))

/-- addi: x[rt] <- x[rs] + sext(imm), wrapping (40_integer.md R213). -/
def execAddi (rt rs : Gpr) (imm : BitVec 16) (s : State) : Result :=
  complete (.addi rt rs imm) s (.ok (s.writeGpr rt (s.readGpr rs + imm.signExtend 32)))

/-- slti: set on less than sext(imm), signed (40_integer.md R214). -/
def execSlti (rt rs : Gpr) (imm : BitVec 16) (s : State) : Result :=
  complete (.slti rt rs imm) s (.ok (s.writeGpr rt (wordOfBool ((s.readGpr rs).slt (imm.signExtend 32)))))

/-- sltiu: set on less than sext(imm), compared unsigned (40_integer.md R215). -/
def execSltiu (rt rs : Gpr) (imm : BitVec 16) (s : State) : Result :=
  complete (.sltiu rt rs imm) s (.ok (s.writeGpr rt (wordOfBool ((s.readGpr rs).ult (imm.signExtend 32)))))

/-- andi: x[rt] <- x[rs] & zext(imm) (40_integer.md R216). -/
def execAndi (rt rs : Gpr) (imm : BitVec 16) (s : State) : Result :=
  complete (.andi rt rs imm) s (.ok (s.writeGpr rt (s.readGpr rs &&& imm.setWidth 32)))

/-- ori: x[rt] <- x[rs] | zext(imm) (40_integer.md R217). -/
def execOri (rt rs : Gpr) (imm : BitVec 16) (s : State) : Result :=
  complete (.ori rt rs imm) s (.ok (s.writeGpr rt (s.readGpr rs ||| imm.setWidth 32)))

/-- xori: x[rt] <- x[rs] ^ zext(imm) (40_integer.md R218). -/
def execXori (rt rs : Gpr) (imm : BitVec 16) (s : State) : Result :=
  complete (.xori rt rs imm) s (.ok (s.writeGpr rt (s.readGpr rs ^^^ imm.setWidth 32)))

/-- sll: x[rd] <- x[rt] << sa (40_integer.md R219). -/
def execSll (rd rt : Gpr) (sa : Fin 32) (s : State) : Result :=
  complete (.sll rd rt sa) s (.ok (s.writeGpr rd (s.readGpr rt <<< sa.val)))

/-- srl: x[rd] <- x[rt] >> sa, zero fill (40_integer.md R220). -/
def execSrl (rd rt : Gpr) (sa : Fin 32) (s : State) : Result :=
  complete (.srl rd rt sa) s (.ok (s.writeGpr rd (s.readGpr rt >>> sa.val)))

/-- sra: x[rd] <- x[rt] >> sa, sign fill (40_integer.md R221). -/
def execSra (rd rt : Gpr) (sa : Fin 32) (s : State) : Result :=
  complete (.sra rd rt sa) s (.ok (s.writeGpr rd ((s.readGpr rt).sshiftRight sa.val)))

/-- sllv: x[rd] <- x[rt] << x[rs][4:0] (40_integer.md R222). -/
def execSllv (rd rt rs : Gpr) (s : State) : Result :=
  complete (.sllv rd rt rs) s (.ok (s.writeGpr rd (s.readGpr rt <<< shiftAmount (s.readGpr rs))))

/-- srlv: x[rd] <- x[rt] >> x[rs][4:0], zero fill (40_integer.md R223). -/
def execSrlv (rd rt rs : Gpr) (s : State) : Result :=
  complete (.srlv rd rt rs) s (.ok (s.writeGpr rd (s.readGpr rt >>> shiftAmount (s.readGpr rs))))

/-- srav: x[rd] <- x[rt] >> x[rs][4:0], sign fill (40_integer.md R224). -/
def execSrav (rd rt rs : Gpr) (s : State) : Result :=
  complete (.srav rd rt rs) s (.ok (s.writeGpr rd ((s.readGpr rt).sshiftRight (shiftAmount (s.readGpr rs)))))

/-- ror: x[rd] <- x[rt] rotated right by sa (40_integer.md R225). -/
def execRor (rd rt : Gpr) (sa : Fin 32) (s : State) : Result :=
  complete (.ror rd rt sa) s (.ok (s.writeGpr rd (rotateRight (s.readGpr rt) sa.val)))

/-- rorr: x[rd] <- x[rt] rotated right by x[rs][4:0] (40_integer.md R226). -/
def execRorr (rd rt rs : Gpr) (s : State) : Result :=
  complete (.rorr rd rt rs) s (.ok (s.writeGpr rd (rotateRight (s.readGpr rt) (shiftAmount (s.readGpr rs)))))

/-- mul: the signed product, low word to rd, high word to rh (40_integer.md R227). -/
def execMul (rd rh rs rt : Gpr) (s : State) : Result :=
  let p := signedProduct (s.readGpr rs) (s.readGpr rt)
  complete (.mul rd rh rs rt) s (.ok (s.writePair rd rh (lowWord p) (highWord p)))

/-- mulu: the unsigned product, low word to rd, high word to rh (40_integer.md R228). -/
def execMulu (rd rh rs rt : Gpr) (s : State) : Result :=
  let p := unsignedProduct (s.readGpr rs) (s.readGpr rt)
  complete (.mulu rd rh rs rt) s (.ok (s.writePair rd rh (lowWord p) (highWord p)))

/-- div: the signed quotient to rd, the remainder to rh, with the two value checks before any write
(40_integer.md R229). -/
def execDiv (rd rh rs rt : Gpr) (s : State) : Result :=
  let a := s.readGpr rs
  let b := s.readGpr rt
  complete (.div rd rh rs rt) s do
    checkDivisor b
    checkQuotient a b
    pure (s.writePair rd rh (signedQuotient a b) (signedRemainder a b))

/-- divu: the unsigned quotient to rd, the remainder to rh, with the value check before any write
(40_integer.md R230). -/
def execDivu (rd rh rs rt : Gpr) (s : State) : Result :=
  let a := s.readGpr rs
  let b := s.readGpr rt
  complete (.divu rd rh rs rt) s do
    checkDivisor b
    pure (s.writePair rd rh (unsignedQuotient a b) (unsignedRemainder a b))

/-- clz: x[rd] <- the leading zeros of x[rs] (40_integer.md R231). -/
def execClz (rd rs : Gpr) (ign : BitVec 5) (s : State) : Result :=
  complete (.clz rd rs ign) s (.ok (s.writeGpr rd (leadingZeros (s.readGpr rs))))

/-- seb: x[rd] <- sext(x[rt][7:0]) (40_integer.md R232). -/
def execSeb (rd rt : Gpr) (s : State) : Result :=
  complete (.seb rd rt) s (.ok (s.writeGpr rd (((s.readGpr rt).extractLsb' 0 8).signExtend 32)))

/-- seh: x[rd] <- sext(x[rt][15:0]) (40_integer.md R233). -/
def execSeh (rd rt : Gpr) (s : State) : Result :=
  complete (.seh rd rt) s (.ok (s.writeGpr rd (((s.readGpr rt).extractLsb' 0 16).signExtend 32)))

/-- ext: x[rt] <- zext(x[rs][pos+size-1 : pos]), a fault when the field runs past bit 31
(40_integer.md R234). -/
def execExt (rt rs : Gpr) (pos size : Nat) (s : State) : Result :=
  complete (.ext rt rs pos size) s do
    checkField pos size
    pure (s.writeGpr rt (bitField (s.readGpr rs) pos size))

/-- movz: x[rd] <- x[rs] if x[rt] is 0 (40_integer.md R235). -/
def execMovz (rd rs rt : Gpr) (s : State) : Result :=
  complete (.movz rd rs rt) s
    (.ok (if s.readGpr rt = 0#32 then s.writeGpr rd (s.readGpr rs) else s))

/-- movn: x[rd] <- x[rs] if x[rt] is not 0 (40_integer.md R236). -/
def execMovn (rd rs rt : Gpr) (s : State) : Result :=
  complete (.movn rd rs rt) s
    (.ok (if s.readGpr rt = 0#32 then s else s.writeGpr rd (s.readGpr rs)))

/-- movt: x[rd] <- x[rs] if cc is 1 (40_integer.md R237). -/
def execMovt (rd rs : Gpr) (s : State) : Result :=
  complete (.movt rd rs) s do
    let c ← s.readCc
    pure (if c then s.writeGpr rd (s.readGpr rs) else s)

/-- movf: x[rd] <- x[rs] if cc is 0 (40_integer.md R238). -/
def execMovf (rd rs : Gpr) (s : State) : Result :=
  complete (.movf rd rs) s do
    let c ← s.readCc
    pure (if c then s else s.writeGpr rd (s.readGpr rs))

end Sys2Proof.Machine
end

