-- ==== Sys2Proof/Machine/LoadStore.lean ====
section
/-! DEFINITION. The meanings of the loads and stores (46_loadstore.md). The checks come before any write,
in the order of R441: index, unwritten slot, alignment, admission. -/

namespace Sys2Proof.Machine

/-! ## Loads -/

/-- ldb: load byte, sign-extended (46_loadstore.md R442). -/
def execLdb (rt : Gpr) (imm : BitVec 16) (rs : Gpr) (s : State) : Result :=
  complete (.ldb rt imm rs) s do
    let ea := s.effAddr rs imm
    let v ← s.loadByte ea
    pure (s.writeGpr rt (v.signExtend 32))

/-- ldbu: load byte, zero-extended (46_loadstore.md R443). -/
def execLdbu (rt : Gpr) (imm : BitVec 16) (rs : Gpr) (s : State) : Result :=
  complete (.ldbu rt imm rs) s do
    let ea := s.effAddr rs imm
    let v ← s.loadByte ea
    pure (s.writeGpr rt (v.setWidth 32))

/-- ldh: load half, sign-extended (46_loadstore.md R444). -/
def execLdh (rt : Gpr) (imm : BitVec 16) (rs : Gpr) (s : State) : Result :=
  complete (.ldh rt imm rs) s do
    let ea := s.effAddr rs imm
    checkAligned ea 2
    let v ← s.loadHalf ea
    pure (s.writeGpr rt (v.signExtend 32))

/-- ldhu: load half, zero-extended (46_loadstore.md R445). -/
def execLdhu (rt : Gpr) (imm : BitVec 16) (rs : Gpr) (s : State) : Result :=
  complete (.ldhu rt imm rs) s do
    let ea := s.effAddr rs imm
    checkAligned ea 2
    let v ← s.loadHalf ea
    pure (s.writeGpr rt (v.setWidth 32))

/-- ldw: load word (46_loadstore.md R446). -/
def execLdw (rt : Gpr) (imm : BitVec 16) (rs : Gpr) (s : State) : Result :=
  complete (.ldw rt imm rs) s do
    let ea := s.effAddr rs imm
    checkAligned ea 4
    let v ← s.loadWord ea
    pure (s.writeGpr rt v)

/-- ldwl: load word left, from ea to the end of its aligned word (46_loadstore.md R447). -/
def execLdwl (rt : Gpr) (imm : BitVec 16) (rs : Gpr) (s : State) : Result :=
  complete (.ldwl rt imm rs) s do
    let ea := s.effAddr rs imm
    let w ← s.loadWord (alignedWord ea)
    pure (s.writeGpr rt (mergeLoadLeft ea w (s.readGpr rt)))

/-- ldwr: load word right, from the start of the aligned word to ea (46_loadstore.md R448). -/
def execLdwr (rt : Gpr) (imm : BitVec 16) (rs : Gpr) (s : State) : Result :=
  complete (.ldwr rt imm rs) s do
    let ea := s.effAddr rs imm
    let w ← s.loadWord (alignedWord ea)
    pure (s.writeGpr rt (mergeLoadRight ea w (s.readGpr rt)))

/-! ## Stores -/

/-- stb: store byte (46_loadstore.md R449). -/
def execStb (rt : Gpr) (imm : BitVec 16) (rs : Gpr) (s : State) : Result :=
  complete (.stb rt imm rs) s do
    let ea := s.effAddr rs imm
    s.storeByte ea ((s.readGpr rt).extractLsb' 0 8)

/-- sth: store half (46_loadstore.md R450). -/
def execSth (rt : Gpr) (imm : BitVec 16) (rs : Gpr) (s : State) : Result :=
  complete (.sth rt imm rs) s do
    let ea := s.effAddr rs imm
    checkAligned ea 2
    s.storeHalf ea ((s.readGpr rt).extractLsb' 0 16)

/-- stw: store word (46_loadstore.md R451). -/
def execStw (rt : Gpr) (imm : BitVec 16) (rs : Gpr) (s : State) : Result :=
  complete (.stw rt imm rs) s do
    let ea := s.effAddr rs imm
    checkAligned ea 4
    s.storeWord ea (s.readGpr rt)

/-- stwl: store word left, the read and the write of the aligned word in one step (46_loadstore.md R452; log 21). -/
def execStwl (rt : Gpr) (imm : BitVec 16) (rs : Gpr) (s : State) : Result :=
  complete (.stwl rt imm rs) s do
    let ea := s.effAddr rs imm
    let m ← s.loadWord (alignedWord ea)
    s.storeWord (alignedWord ea) (mergeStoreLeft ea (s.readGpr rt) m)

/-- stwr: store word right, the read and the write of the aligned word in one step (46_loadstore.md R453; log 21). -/
def execStwr (rt : Gpr) (imm : BitVec 16) (rs : Gpr) (s : State) : Result :=
  complete (.stwr rt imm rs) s do
    let ea := s.effAddr rs imm
    let m ← s.loadWord (alignedWord ea)
    s.storeWord (alignedWord ea) (mergeStoreRight ea (s.readGpr rt) m)

/-! ## Load-linked and store-conditional -/

/-- ll: a plain word load; there is no reservation (46_loadstore.md R454). -/
def execLl (rt : Gpr) (imm : BitVec 16) (rs : Gpr) (s : State) : Result :=
  complete (.ll rt imm rs) s do
    let ea := s.effAddr rs imm
    checkAligned ea 4
    let v ← s.loadWord ea
    pure (s.writeGpr rt v)

/-- sc: a word store that always succeeds, then x[rt] <- 1 (46_loadstore.md R455). -/
def execSc (rt : Gpr) (imm : BitVec 16) (rs : Gpr) (s : State) : Result :=
  complete (.sc rt imm rs) s do
    let ea := s.effAddr rs imm
    checkAligned ea 4
    let s' ← s.storeWord ea (s.readGpr rt)
    pure (s'.writeGpr rt 1#32)

/-! ## Floating-point loads and stores -/

/-- lwc1: f[ft] <- the word (46_loadstore.md R456). -/
def execLwc1 (ft : Fpr) (imm : BitVec 16) (rs : Gpr) (s : State) : Result :=
  complete (.lwc1 ft imm rs) s do
    let ea := s.effAddr rs imm
    checkAligned ea 4
    let v ← s.loadWord ea
    pure (s.writeS ft v)

/-- ldc1: the high word from ea to slot ft+1, the low word from ea+4 to slot ft
(46_loadstore.md R457). -/
def execLdc1 (ft : Fpr) (imm : BitVec 16) (rs : Gpr) (s : State) : Result :=
  complete (.ldc1 ft imm rs) s do
    let ea := s.effAddr rs imm
    checkDouble ft
    checkAligned ea 4
    let hi ← s.loadWord ea
    let lo ← s.loadWord (ea + 4#32)
    pure (s.writeD ft (hi ++ lo))

/-- swc1: the slot to memory (46_loadstore.md R458). -/
def execSwc1 (ft : Fpr) (imm : BitVec 16) (rs : Gpr) (s : State) : Result :=
  complete (.swc1 ft imm rs) s do
    let ea := s.effAddr rs imm
    let v ← s.readS ft
    checkAligned ea 4
    s.storeWord ea v

/-- sdc1: the high word to ea, the low word to ea+4, both or neither (46_loadstore.md R459). -/
def execSdc1 (ft : Fpr) (imm : BitVec 16) (rs : Gpr) (s : State) : Result :=
  complete (.sdc1 ft imm rs) s do
    let ea := s.effAddr rs imm
    checkDouble ft
    let v ← s.readD ft
    checkAligned ea 4
    s.checkAdmitted ea 4
    s.checkAdmitted (ea + 4#32) 4
    pure ((s.putBytes ea (bytesOfWord (highWord v))).putBytes (ea + 4#32) (bytesOfWord (lowWord v)))

end Sys2Proof.Machine
end

