-- ==== Sys2Proof/Machine/Trap.lean ====
section
/-! DEFINITION. The meanings of the trap and environment instructions (43_trap_system.md). -/

namespace Sys2Proof.Machine

/-- teq: a fatal trap if x[rs] = x[rt] (43_trap_system.md R310); the code field is not read. -/
def execTeq (rs rt : Gpr) (code : BitVec 10) (s : State) : Result :=
  complete (.teq rs rt code) s
    (if s.readGpr rs = s.readGpr rt then .error (.trap .trapEqual) else .ok s)

/-- break: always the fault Break (43_trap_system.md R311); the code field is not read. -/
def execBrk (code : BitVec 20) (s : State) : Result := raise (.brk code) .break s

/-- syscall: the host call, which hands the state to the host (43_trap_system.md R312); the code field
is not read. -/
def execSyscall (code : BitVec 20) (s : State) : Result := callHost (.syscall code) s

end Sys2Proof.Machine
end

