-- ==== Sys2Proof/Machine/Dispatch.lean ====
section
/-! DEFINITION. The meaning of each instruction: one arm per constructor, one row of
spec/opcode_table.json each. -/

namespace Sys2Proof.Machine

/-- One instruction, decoded, in one state (00_scope.md R2). -/
def exec (i : Instr) (s : State) : Host.Outcome State Fault Refusal :=
  match i with
  -- 40_integer.md
  | .add rd rs rt => Sys2Proof.Machine.execAdd rd rs rt s
  | .sub rd rs rt => Sys2Proof.Machine.execSub rd rs rt s
  | .and rd rs rt => Sys2Proof.Machine.execAnd rd rs rt s
  | .or rd rs rt => Sys2Proof.Machine.execOr rd rs rt s
  | .xor rd rs rt => Sys2Proof.Machine.execXor rd rs rt s
  | .nor rd rs rt => Sys2Proof.Machine.execNor rd rs rt s
  | .slt rd rs rt => Sys2Proof.Machine.execSlt rd rs rt s
  | .sltu rd rs rt => Sys2Proof.Machine.execSltu rd rs rt s
  | .addi rt rs imm => Sys2Proof.Machine.execAddi rt rs imm s
  | .slti rt rs imm => Sys2Proof.Machine.execSlti rt rs imm s
  | .sltiu rt rs imm => Sys2Proof.Machine.execSltiu rt rs imm s
  | .andi rt rs imm => Sys2Proof.Machine.execAndi rt rs imm s
  | .ori rt rs imm => Sys2Proof.Machine.execOri rt rs imm s
  | .xori rt rs imm => Sys2Proof.Machine.execXori rt rs imm s
  | .sll rd rt sa => Sys2Proof.Machine.execSll rd rt sa s
  | .srl rd rt sa => Sys2Proof.Machine.execSrl rd rt sa s
  | .sra rd rt sa => Sys2Proof.Machine.execSra rd rt sa s
  | .sllv rd rt rs => Sys2Proof.Machine.execSllv rd rt rs s
  | .srlv rd rt rs => Sys2Proof.Machine.execSrlv rd rt rs s
  | .srav rd rt rs => Sys2Proof.Machine.execSrav rd rt rs s
  | .ror rd rt sa => Sys2Proof.Machine.execRor rd rt sa s
  | .rorr rd rt rs => Sys2Proof.Machine.execRorr rd rt rs s
  | .mul rd rh rs rt => Sys2Proof.Machine.execMul rd rh rs rt s
  | .mulu rd rh rs rt => Sys2Proof.Machine.execMulu rd rh rs rt s
  | .div rd rh rs rt => Sys2Proof.Machine.execDiv rd rh rs rt s
  | .divu rd rh rs rt => Sys2Proof.Machine.execDivu rd rh rs rt s
  | .clz rd rs ign => Sys2Proof.Machine.execClz rd rs ign s
  | .seb rd rt => Sys2Proof.Machine.execSeb rd rt s
  | .seh rd rt => Sys2Proof.Machine.execSeh rd rt s
  | .ext rt rs pos size => Sys2Proof.Machine.execExt rt rs pos size s
  | .movz rd rs rt => Sys2Proof.Machine.execMovz rd rs rt s
  | .movn rd rs rt => Sys2Proof.Machine.execMovn rd rs rt s
  | .movt rd rs => Sys2Proof.Machine.execMovt rd rs s
  | .movf rd rs => Sys2Proof.Machine.execMovf rd rs s
  -- 41_control_flow.md
  | .jump imm => Sys2Proof.Machine.execJump imm s
  | .call imm => Sys2Proof.Machine.execCall imm s
  | .jumpr rs => Sys2Proof.Machine.execJumpr rs s
  | .callr rs => Sys2Proof.Machine.execCallr rs s
  | .jeq rs rt imm => Sys2Proof.Machine.execJeq rs rt imm s
  | .jne rs rt imm => Sys2Proof.Machine.execJne rs rt imm s
  | .jlez rs imm => Sys2Proof.Machine.execJlez rs imm s
  | .jgtz rs imm => Sys2Proof.Machine.execJgtz rs imm s
  | .jltz rs imm => Sys2Proof.Machine.execJltz rs imm s
  | .jgez rs imm => Sys2Proof.Machine.execJgez rs imm s
  | .bc1t imm => Sys2Proof.Machine.execBc1t imm s
  | .bc1f imm => Sys2Proof.Machine.execBc1f imm s
  -- 42_compact.md
  | .rcall imm => Sys2Proof.Machine.execRcall imm s
  | .ijmphi imm => Sys2Proof.Machine.execIjmphi imm s
  | .ijmp rs imm => Sys2Proof.Machine.execIjmp rs imm s
  | .ldi rt imm => Sys2Proof.Machine.execLdi rt imm s
  | .ldihi imm => Sys2Proof.Machine.execLdihi imm s
  -- 43_trap_system.md
  | .teq rs rt code => Sys2Proof.Machine.execTeq rs rt code s
  | .brk code => Sys2Proof.Machine.execBrk code s
  | .syscall code => Sys2Proof.Machine.execSyscall code s
  -- 44_fp_arith.md
  | .addS fd fs ft => Sys2Proof.Machine.execAddS fd fs ft s
  | .addD fd fs ft => Sys2Proof.Machine.execAddD fd fs ft s
  | .subS fd fs ft => Sys2Proof.Machine.execSubS fd fs ft s
  | .subD fd fs ft => Sys2Proof.Machine.execSubD fd fs ft s
  | .mulS fd fs ft => Sys2Proof.Machine.execMulS fd fs ft s
  | .mulD fd fs ft => Sys2Proof.Machine.execMulD fd fs ft s
  | .divS fd fs ft => Sys2Proof.Machine.execDivS fd fs ft s
  | .divD fd fs ft => Sys2Proof.Machine.execDivD fd fs ft s
  | .sqrtS fd fs => Sys2Proof.Machine.execSqrtS fd fs s
  | .sqrtD fd fs => Sys2Proof.Machine.execSqrtD fd fs s
  | .absS fd fs => Sys2Proof.Machine.execAbsS fd fs s
  | .absD fd fs => Sys2Proof.Machine.execAbsD fd fs s
  | .negS fd fs => Sys2Proof.Machine.execNegS fd fs s
  | .negD fd fs => Sys2Proof.Machine.execNegD fd fs s
  | .movS fd fs => Sys2Proof.Machine.execMovS fd fs s
  | .movD fd fs => Sys2Proof.Machine.execMovD fd fs s
  | .maddS fd fr fs ft => Sys2Proof.Machine.execMaddS fd fr fs ft s
  | .maddD fd fr fs ft => Sys2Proof.Machine.execMaddD fd fr fs ft s
  | .msubS fd fr fs ft => Sys2Proof.Machine.execMsubS fd fr fs ft s
  | .msubD fd fr fs ft => Sys2Proof.Machine.execMsubD fd fr fs ft s
  -- 45_fp_compare_convert.md
  | .cEqS fs ft => Sys2Proof.Machine.execCEqS fs ft s
  | .cEqD fs ft => Sys2Proof.Machine.execCEqD fs ft s
  | .cOleS fs ft => Sys2Proof.Machine.execCOleS fs ft s
  | .cOleD fs ft => Sys2Proof.Machine.execCOleD fs ft s
  | .cOltS fs ft => Sys2Proof.Machine.execCOltS fs ft s
  | .cOltD fs ft => Sys2Proof.Machine.execCOltD fs ft s
  | .cUeqS fs ft => Sys2Proof.Machine.execCUeqS fs ft s
  | .cUeqD fs ft => Sys2Proof.Machine.execCUeqD fs ft s
  | .cUleS fs ft => Sys2Proof.Machine.execCUleS fs ft s
  | .cUleD fs ft => Sys2Proof.Machine.execCUleD fs ft s
  | .cUltS fs ft => Sys2Proof.Machine.execCUltS fs ft s
  | .cUltD fs ft => Sys2Proof.Machine.execCUltD fs ft s
  | .cUnS fs ft => Sys2Proof.Machine.execCUnS fs ft s
  | .cUnD fs ft => Sys2Proof.Machine.execCUnD fs ft s
  | .movzS fd fs rt => Sys2Proof.Machine.execMovzS fd fs rt s
  | .movzD fd fs rt => Sys2Proof.Machine.execMovzD fd fs rt s
  | .movnS fd fs rt => Sys2Proof.Machine.execMovnS fd fs rt s
  | .movnD fd fs rt => Sys2Proof.Machine.execMovnD fd fs rt s
  | .movtS fd fs => Sys2Proof.Machine.execMovtS fd fs s
  | .movtD fd fs => Sys2Proof.Machine.execMovtD fd fs s
  | .movfS fd fs => Sys2Proof.Machine.execMovfS fd fs s
  | .movfD fd fs => Sys2Proof.Machine.execMovfD fd fs s
  | .cvtDS fd fs => Sys2Proof.Machine.execCvtDS fd fs s
  | .cvtSD fd fs => Sys2Proof.Machine.execCvtSD fd fs s
  | .cvtSW fd fs => Sys2Proof.Machine.execCvtSW fd fs s
  | .cvtDW fd fs => Sys2Proof.Machine.execCvtDW fd fs s
  | .cvtWS fd fs => Sys2Proof.Machine.execCvtWS fd fs s
  | .cvtWD fd fs => Sys2Proof.Machine.execCvtWD fd fs s
  | .roundWS fd fs => Sys2Proof.Machine.execRoundWS fd fs s
  | .roundWD fd fs => Sys2Proof.Machine.execRoundWD fd fs s
  | .ceilWS fd fs => Sys2Proof.Machine.execCeilWS fd fs s
  | .ceilWD fd fs => Sys2Proof.Machine.execCeilWD fd fs s
  | .floorWS fd fs => Sys2Proof.Machine.execFloorWS fd fs s
  | .floorWD fd fs => Sys2Proof.Machine.execFloorWD fd fs s
  | .truncWS fd fs => Sys2Proof.Machine.execTruncWS fd fs s
  | .truncWD fd fs => Sys2Proof.Machine.execTruncWD fd fs s
  | .mfc1 rt fs => Sys2Proof.Machine.execMfc1 rt fs s
  | .mtc1 rt fs => Sys2Proof.Machine.execMtc1 rt fs s
  | .mfhc1 rt fs => Sys2Proof.Machine.execMfhc1 rt fs s
  | .mflc1 rt fs => Sys2Proof.Machine.execMflc1 rt fs s
  | .mthc1 rt fs => Sys2Proof.Machine.execMthc1 rt fs s
  | .mtlc1 rt fs => Sys2Proof.Machine.execMtlc1 rt fs s
  -- 46_loadstore.md
  | .ldb rt imm rs => Sys2Proof.Machine.execLdb rt imm rs s
  | .ldbu rt imm rs => Sys2Proof.Machine.execLdbu rt imm rs s
  | .ldh rt imm rs => Sys2Proof.Machine.execLdh rt imm rs s
  | .ldhu rt imm rs => Sys2Proof.Machine.execLdhu rt imm rs s
  | .ldw rt imm rs => Sys2Proof.Machine.execLdw rt imm rs s
  | .ldwl rt imm rs => Sys2Proof.Machine.execLdwl rt imm rs s
  | .ldwr rt imm rs => Sys2Proof.Machine.execLdwr rt imm rs s
  | .stb rt imm rs => Sys2Proof.Machine.execStb rt imm rs s
  | .sth rt imm rs => Sys2Proof.Machine.execSth rt imm rs s
  | .stw rt imm rs => Sys2Proof.Machine.execStw rt imm rs s
  | .stwl rt imm rs => Sys2Proof.Machine.execStwl rt imm rs s
  | .stwr rt imm rs => Sys2Proof.Machine.execStwr rt imm rs s
  | .ll rt imm rs => Sys2Proof.Machine.execLl rt imm rs s
  | .sc rt imm rs => Sys2Proof.Machine.execSc rt imm rs s
  | .lwc1 ft imm rs => Sys2Proof.Machine.execLwc1 ft imm rs s
  | .ldc1 ft imm rs => Sys2Proof.Machine.execLdc1 ft imm rs s
  | .swc1 ft imm rs => Sys2Proof.Machine.execSwc1 ft imm rs s
  | .sdc1 ft imm rs => Sys2Proof.Machine.execSdc1 ft imm rs s

end Sys2Proof.Machine
end

