-- ==== Sys2Proof/Machine/Host.lean ====
section
/-! DEFINITION. What the host does to the block: its contract at a host call (60_exceptions.md R507 to
R513), the inspection contract (10_state.md R59, R60), loading and the process bootstrap
(70_reset_and_hazards.md R533 to R538), and the end of the run (60_exceptions.md R480, R511). -/

namespace Sys2Proof.Machine

/-! ## The host call -/

/-- The shift-down of the arguments, each from the old value (60_exceptions.md R507). -/
def State.shiftDown (s : State) : State :=
  ((((s.writeGpr 4 (s.readGpr 5)).writeGpr 5 (s.readGpr 6)).writeGpr 6 (s.readGpr 7)).writeGpr 7
    (s.readGpr 8)).writeGpr 8 (s.readGpr 9)

/-- The host's next answer: the head of the queue, or a free value when the queue is empty
(60_exceptions.md R513; log 14). -/
def State.takeReply (s : State) : HostReply × State :=
  match s.hostReplies with
  | [] => (Config.hostReply s.draws, { s with draws := s.draws + 1 })
  | r :: rest => (r, { s with hostReplies := rest })

/-- The guest bytes a call writes, those the port admits. They are no stores of the run (log 17). -/
def State.hostWrites (s : State) : List (Word × Byte) → State
  | [] => s
  | (a, v) :: rest =>
    State.hostWrites (if s.admits a then { s with mem := s.mem.write a.toNat v } else s) rest

/-- The two result registers of a host call (10_state.md R43). -/
def State.hostReturn (s : State) (r flag : Word) : State := (s.writeGpr 2 r).writeGpr 7 flag

/-- The error flag of a supported call: 1 for a negative result (60_exceptions.md R508). -/
def errorFlag (r : Word) : Word := if r.toInt < 0 then 1#32 else 0#32

/-- Whether the host performs call `n`: it is in the table and is not the fstat number
(60_exceptions.md R508, R509). -/
def State.supports (s : State) (n : Word) : Bool :=
  s.emb.supportedSyscalls.contains n && !(n == s.emb.fstatNr)

/-- The host's turn, for a call by the syscall whose word is `word`: the shift-down (60_exceptions.md
R507), then by the call number the unsupported answer (R509), the exit (R511), or the host's answer
(R508, or R495; log 18, log 30). Unless the run ends, the block resumes. -/
def hostTurn (word : Word) (s : State) : Result :=
  let n := s.readGpr 4
  let s₁ := s.shiftDown
  if !s.supports n then .next { s₁.hostReturn 0xFFFFFFFF#32 1#32 with control := .resume word }
  else if n = s.emb.exitNr then .next { s₁ with status := .exited (s₁.readGpr 4) }
  else
    let reply := s₁.takeReply
    match reply.1 with
    | .fatal writes => .next ((reply.2.hostWrites writes).halt .hostFatal (some word))
    | .returns r writes =>
      .next { (reply.2.hostWrites writes).hostReturn r (errorFlag r) with control := .resume word }

/-- The resume after a host call, with the registers and memory as the host left them: pc <- npc, which
must not be 0 (43_trap_system.md R312, 41_control_flow.md R260; log 16). -/
def resumeTurn (word : Word) (s : State) : Result :=
  if s.npc = 0#32 then .next (s.halt .undefinedJumpTarget (some word))
  else .next { s with pc := s.npc, control := .block }

/-! ## Inspection -/

/-- `inspect_read(k)` (10_state.md R59). Before the first write of hi or lo the answer is free
(log 19). -/
def State.inspectRead (s : State) (k : Nat) : Word :=
  if h : k < 32 then s.readGpr ⟨k, h⟩
  else if k = 33 then (if s.lo.written then s.lo.val else Config.unwrittenLo)
  else if k = 34 then (if s.hi.written then s.hi.val else Config.unwrittenHi)
  else if k = 37 then s.pc
  else 0#32

/-- `inspect_write(k, v)` (10_state.md R60); it sets the marks of hi and lo (log 28). DESIGN CHOICE
(log 32): it does the same while a host call is pending, so the resume is at the written pc + 4. -/
def State.inspectWrite (s : State) (k : Nat) (v : Word) : State :=
  if h : k < 32 then s.writeGpr ⟨k, h⟩ v
  else if k = 33 then { s with lo := .wrote v }
  else if k = 34 then { s with hi := .wrote v }
  else if k = 37 then { s with pc := v }
  else s

/-! ## Loading and boot -/

/-- The loader: the image in memory and pc <- `ENTRY` (70_reset_and_hazards.md R533). DESIGN CHOICE
(log 33): the bytes are written whether or not the port admits them. -/
def State.load (s : State) (image : List (Word × Byte)) (entry : Word) : State :=
  { s with
    mem := image.foldl (fun m c => m.write c.1.toNat c.2) s.mem
    pc := entry }

/-- Forget that a store of the run wrote the four bytes from `a` up. -/
def AddrSet.dropWord (l : AddrSet) (a : Word) : AddrSet :=
  l.filter fun n => !([a, a + 1#32, a + 2#32, a + 3#32].any fun b => b.toNat == n)

/-- The machine `s` about to run the word `w`: running, the block to act, pc at a multiple of 4, the word
in memory there, its bytes admitted and not stored to by the run (log 5, log 23). -/
def State.placeWord (s : State) (w : Word) : State :=
  let a := s.pc &&& 0xFFFFFFFC#32
  { s with
    pc := a
    status := .running
    control := .block
    mem := s.mem.writeBytes a (bytesOfWord w)
    stored := s.stored.dropWord a
    emb :=
      if s.admitsRun a 4 then s.emb else { s.emb with launch := ⟨a.toNat, 4⟩ :: s.emb.launch } }

/-- Where the bootstrap puts one process: the OPEN parameters of 70_reset_and_hazards.md R537
(log 24). -/
structure BootFrame where
  /-- `STRTAB(k)`. -/
  strtab   : Word
  /-- The stack pointer, SP. -/
  sp       : Word
  /-- `PAGE_SIZE`. -/
  pageSize : Word
  /-- What the table holds after the strings, which R535 leaves open: any bytes, and past the end of
  this list what memory held before (log 24). -/
  fill     : List Byte
  deriving DecidableEq, Repr

/-- The constraints on a frame (70_reset_and_hazards.md R534, R537): the stack image lies below the
string table, the table below `RAM_TOP`, and SP is a multiple of 8. -/
def BootFrame.fits (f : BootFrame) (ramTop argc : Nat) : Bool :=
  decide (f.strtab.toNat + 512 ≤ ramTop) && decide (f.sp.toNat + 28 + 4 * argc ≤ f.strtab.toNat) &&
    decide (f.sp.toNat % 8 = 0)

/-- The bytes of the string table: each string and a zero byte, packed (70_reset_and_hazards.md R535). -/
def stringTable (argv : List (List Byte)) : List Byte := argv.flatMap (fun str => str ++ [0#8])

/-- The addresses of the strings in the table (70_reset_and_hazards.md R535). -/
def stringAddrs : Word → List (List Byte) → List Word
  | _, [] => []
  | a, str :: rest => a :: stringAddrs (a + BitVec.ofNat 32 (str.length + 1)) rest

/-- The words of the stack image from SP upward (70_reset_and_hazards.md R534). -/
def stackImage (f : BootFrame) (argv : List (List Byte)) : List Word :=
  [BitVec.ofNat 32 argv.length] ++ stringAddrs f.strtab argv ++
    [0#32, 0#32, 6#32, f.pageSize, 0#32, 0#32]

/-- The bytes the bootstrap writes to the table, at most 512: the strings, and after them the frame's
own (70_reset_and_hazards.md R535; log 24). -/
def tableImage (f : BootFrame) (argv : List (List Byte)) : List Byte :=
  (stringTable argv ++ f.fill).take 512

/-- The bootstrap of a process (70_reset_and_hazards.md R534 to R536), or its fatal condition, more
than 512 bytes of strings (R538). DESIGN CHOICE (log 24): then no word is recorded, and memory and
every register, x[29], x[4] and x[5] among them, are as before; the spec gives the run status only.
DESIGN CHOICE (log 33): the bytes are written whether or not the port admits them. -/
def State.bootstrap (s : State) (f : BootFrame) (argv : List (List Byte)) : State :=
  if 512 < (stringTable argv).length then s.halt .hostFatal none
  else
    let m₁ := s.mem.writeBytes f.strtab (tableImage f argv)
    let m₂ := m₁.writeBytes f.sp ((stackImage f argv).flatMap bytesOfWord)
    ((({ s with mem := m₂ } : State).writeGpr 29 f.sp).writeGpr 4 (BitVec.ofNat 32 argv.length)).writeGpr 5
      (f.sp + 4#32)

/-- A process that has been laid out: its frame and its number of strings. -/
structure LaidFrame where
  frame : BootFrame
  argc  : Nat
  deriving DecidableEq, Repr

/-- The 512 bytes of its string table (70_reset_and_hazards.md R535). -/
def LaidFrame.table (p : LaidFrame) : Region := ⟨p.frame.strtab.toNat, 512⟩

/-- The bytes of its stack image (70_reset_and_hazards.md R534). -/
def LaidFrame.image (p : LaidFrame) : Region := ⟨p.frame.sp.toNat, 28 + 4 * p.argc⟩

/-- Two regions with no address in common. -/
def Region.apart (r q : Region) : Bool :=
  decide (r.base + r.size ≤ q.base) || decide (q.base + q.size ≤ r.base)

/-- The tables and images of two processes do not overlap (70_reset_and_hazards.md R537). -/
def LaidFrame.apart (p q : LaidFrame) : Bool :=
  p.table.apart q.table && p.table.apart q.image && p.image.apart q.table && p.image.apart q.image

/-- A process may follow those laid out, the latest first: its frame fits, its table lies below that of
the latest, and it overlaps none (70_reset_and_hazards.md R537). -/
def LaidFrame.follows (p : LaidFrame) (ramTop : Nat) (laid : List LaidFrame) : Bool :=
  p.frame.fits ramTop p.argc && laid.all p.apart &&
    laid.head?.all fun q => decide (p.frame.strtab.toNat < q.frame.strtab.toNat)

/-- The loader context (70_reset_and_hazards.md R537): the processes laid out, the latest first. -/
structure Loader where
  laid : List LaidFrame
  deriving DecidableEq, Repr

/-- The loader before the first process. -/
def Loader.start : Loader := ⟨[]⟩

/-- The counter k: how many process stack frames have been laid out (70_reset_and_hazards.md R537). -/
def Loader.counter (l : Loader) : Nat := l.laid.length

/-- The next process of a loader, in the frame a layout gives its number; none if that frame breaks the
constraints of 70_reset_and_hazards.md R537 on a layout. DESIGN CHOICE (log 24): the layout is checked
before the 512 bytes of R538, so a frame that breaks it gives none even where the strings are too long. -/
def Loader.bootstrap (l : Loader) (layout : Nat → BootFrame) (ramTop : Nat) (s : State)
    (argv : List (List Byte)) : Option (Loader × State) :=
  let p : LaidFrame := ⟨layout l.counter, argv.length⟩
  if p.follows ramTop l.laid then some (⟨p :: l.laid⟩, s.bootstrap p.frame argv) else none

/-! ## The end of the run -/

/-- The exit status the embedding reports: the status of the exit call (60_exceptions.md R511), or
`FATAL_EXIT_STATUS` after a fault (R480; log 20); none while the run goes on. -/
def State.exitStatus (s : State) : Option Nat :=
  match s.status with
  | .running => none
  | .halted .. => some Config.fatalExitStatus
  | .exited w => some w.toNat

end Sys2Proof.Machine
end

