-- ==== Sys2Proof/Machine/Step.lean ====
section
/-! DEFINITION. One step of the machine: fetch, decode, execute; or the host's turn, or the resume
after it. -/

namespace Sys2Proof.Machine

/-- A step of the block: the fetch may fault (60_exceptions.md R488, R494) or be stuck (R496), a word
that is no instruction faults (R493), and else the instruction runs. -/
def blockStep (s : State) : Result :=
  match s.fetch with
  | .error (.trap t) => .next (s.halt t none)
  | .error (.stuck a) => .fault (.stuckFetch a)
  | .ok w =>
    match decode w with
    | .error _ => .next (s.halt .reservedInstruction (some w))
    | .ok i => exec i s

/-- One step (00_scope.md R2, R29): only a running machine has one (10_state.md R62), and it is that of
the block or, in a host call, of the host and of the resume (43_trap_system.md R312; log 13). -/
def step (s : State) : Host.Outcome State Fault Refusal :=
  match s.status with
  | .halted .. => .fault .notRunning
  | .exited _ => .fault .notRunning
  | .running =>
    match s.control with
    | .block => blockStep s
    | .host word => hostTurn word s
    | .resume word => resumeTurn word s

/-- `s` with an instruction, given by the bits of spec/opcode_table.json, stored where the next step
fetches (log 23). Every instruction is one word of 32 bits; the bits above `nbits` are 0. -/
def State.withFetchWord (s : State) (nbits w : Nat) : State :=
  s.placeWord (BitVec.ofNat 32 (w % 2 ^ nbits))

end Sys2Proof.Machine
end

