-- ==== Sys2Proof/Safety.lean ====
section
/-! DEFINITION. The terms the statements use: the invariant, what raising a fault means, which registers
and bytes an instruction may write, and what correct rounding is. -/

namespace Sys2Proof.Machine

/-! ## The invariant -/

/-- What every step keeps: the memory and the set of stored addresses are in canonical form, and a store
has only ever reached bytes the port admits (20_memory.md R102). -/
structure State.Inv (s : State) : Prop where
  /-- The memory is canonical. -/
  mem_wf          : s.mem.wf
  /-- The set of stored addresses is canonical. -/
  stored_wf       : s.stored.wf
  /-- Every stored address is admitted. -/
  stored_admitted : ∀ n ∈ s.stored, s.admits (BitVec.ofNat 32 n) = true

/-! ## How an instruction ends -/

/-- The sequential advance does not reach 0 (41_control_flow.md R260). -/
def State.Advances (s : State) : Prop := s.pc + 4#32 ≠ 0#32

/-- `i` raises `t`: of the state only the run status changes, to the record of the fault, the pc and the
word (60_exceptions.md R480, R498). -/
def Raises (i : Instr) (s : State) (t : Trap) : Prop :=
  exec i s = .next { s with status := .halted t s.pc (some (encode i)) }

/-- The outcome with a next state changed by `f`. -/
def mapNext (f : State → State) : Result → Result
  | .next t => .next (f t)
  | .fault e => .fault e
  | .refused r => .refused r

/-! ## Floating-point slots -/

/-- The slot of a single has been written (10_state.md R58). -/
def State.HasS (s : State) (i : Fpr) : Prop := s.fpr[i].written = true

/-- Both slots of a double have been written (10_state.md R58). -/
def State.HasD (s : State) (i : Fpr) : Prop := s.fpr[i].written = true ∧ s.fpr[i + 1].written = true

/-- The pattern f[i] (10_state.md R50). -/
def State.patS (s : State) (i : Fpr) : Word := s.fpr[i].val

/-- The pattern f[i+1] ++ f[i] (10_state.md R51). -/
def State.patD (s : State) (i : Fpr) : DWord := s.fpr[i + 1].val ++ s.fpr[i].val

/-- The slots after setS(i, b) (00_scope.md R25). -/
def slotsS (f : Vector (Marked Word) 32) (i : Fpr) (b : Word) : Vector (Marked Word) 32 :=
  f.set i ⟨b, true⟩

/-- The slots after setD(i, b): the low half in slot i, the high half in slot i+1 (00_scope.md R25). -/
def slotsD (f : Vector (Marked Word) 32) (i : Fpr) (b : DWord) : Vector (Marked Word) 32 :=
  (f.set i ⟨b.extractLsb' 0 32, true⟩).set (i + 1 : Fpr) ⟨b.extractLsb' 32 32, true⟩

/-! ## Memory -/

/-- The port admits the `n` bytes from `a` up (20_memory.md R102). -/
def State.Admits (s : State) (a : Word) (n : Nat) : Prop :=
  ∀ k < n, s.admits (a + BitVec.ofNat 32 k) = true

/-- `t` holds the bytes `l` from `a` up, every other byte is that of `s`, and the stored addresses are
those of `s` and the addresses of `l`. -/
structure StoresBytes (s t : State) (a : Word) (l : List Byte) : Prop where
  inside  : ∀ (k : Nat) (h : k < l.length), t.byteAt (a + BitVec.ofNat 32 k) = l[k]
  outside : ∀ b : Word, (∀ k < l.length, b ≠ a + BitVec.ofNat 32 k) → t.byteAt b = s.byteAt b
  marks   : ∀ n : Nat,
    n ∈ t.stored ↔ n ∈ s.stored ∨ ∃ k < l.length, n = (a + BitVec.ofNat 32 k).toNat

/-- The word of the four bytes from `a` up, the byte at `a` most significant (20_memory.md R103). -/
def State.wordOf (s : State) (a : Word) : Word :=
  s.byteAt a ++ s.byteAt (a + 1#32) ++ s.byteAt (a + 2#32) ++ s.byteAt (a + 3#32)

/-- The bytes of a word in the order they stand in memory (20_memory.md R103, R106). -/
def wordBytes (v : Word) : List Byte :=
  [v.extractLsb' 24 8, v.extractLsb' 16 8, v.extractLsb' 8 8, v.extractLsb' 0 8]

/-- Whether a marked register has been written (10_state.md R58). -/
def State.isWritten (s : State) : MarkedReg → Bool
  | .cc => s.cc.written
  | .ldireg => s.ldireg.written
  | .ijmpreg => s.ijmpreg.written
  | .fpr j => s.fpr[j].written

/-- The guest bytes of `t` are those of `s` with the host's writes: a byte the host does not write, or
that the port does not admit, stays (log 17); an admitted one holds the last value written. -/
structure HostWrote (s t : State) (writes : List (Word × Byte)) : Prop where
  kept    : ∀ a : Word, (a ∉ writes.map Prod.fst ∨ s.admits a = false) → t.byteAt a = s.byteAt a
  written : s.mem.wf → ∀ (before after : List (Word × Byte)) (a : Word) (v : Byte),
    writes = before ++ (a, v) :: after → a ∉ after.map Prod.fst → s.admits a = true → t.byteAt a = v

/-! ## The loader -/

/-- The address lies in the string table or the stack image of the process. -/
def LaidFrame.Holds (p : LaidFrame) (a : Nat) : Prop :=
  p.table.contains a = true ∨ p.image.contains a = true

/-- What 70_reset_and_hazards.md R537 asks of the processes laid out: each frame fits, no two of them
hold a common address, and a later string table lies lower. -/
structure Loader.Ok (ramTop : Nat) (l : Loader) : Prop where
  fits : ∀ p ∈ l.laid, p.frame.fits ramTop p.argc = true
  pair : l.laid.Pairwise fun p q =>
    (∀ a, ¬ (p.Holds a ∧ q.Holds a)) ∧ p.frame.strtab.toNat < q.frame.strtab.toNat

/-! ## Correct rounding -/

/-- The rational number a finite value is; 0 for the others. -/
def Fmt.rat (f : Fmt) : FpVal → ℚ
  | .fin neg mag => (signed neg mag : ℚ) / 2 ^ f.unitLog
  | _ => 0

/-- The rational number a pattern without sign is, the pattern of infinity counting as the power of two
past the largest finite number. -/
def Fmt.grid (f : Fmt) (p : Nat) : ℚ := (f.magOf p : ℚ) / 2 ^ f.unitLog

/-- `p` is the pattern without sign nearest to `x ≥ 0`, and the even one of two that are as near: the
rounding of IEEE 754 to nearest, ties to even, where the infinity stands for what overflows
(44_fp_arith.md R331, R334). -/
def Fmt.Nearest (f : Fmt) (x : ℝ) (p : Nat) : Prop :=
  p ≤ f.infMag ∧
    ∀ q ≤ f.infMag, |(f.grid p : ℝ) - x| ≤ |(f.grid q : ℝ) - x| ∧
      (q ≠ p → |(f.grid q : ℝ) - x| = |(f.grid p : ℝ) - x| → p % 2 = 0)

/-- `bits` is the correctly rounded pattern of `x`: the sign of `x` and the nearest pattern. -/
def Fmt.RoundsTo (f : Fmt) (x : ℝ) (bits : Nat) : Prop :=
  ∃ p, f.Nearest |x| p ∧ (x < 0 → bits = f.pattern true p) ∧ (0 ≤ x → bits = f.pattern false p)

end Sys2Proof.Machine

namespace Sys2Proof

open Machine

/-! ## What an instruction reads and writes -/

/-- The general registers an instruction may write (10_state.md R44): its destinations, the link
register of the calls, and the register ldireg names for ldihi. A syscall writes none: it ends its step
at the host. -/
def Instr.gprDests (s : State) : Instr → List Gpr
  | .add rd _ _ => [rd]
  | .sub rd _ _ => [rd]
  | .and rd _ _ => [rd]
  | .or rd _ _ => [rd]
  | .xor rd _ _ => [rd]
  | .nor rd _ _ => [rd]
  | .slt rd _ _ => [rd]
  | .sltu rd _ _ => [rd]
  | .addi rt _ _ => [rt]
  | .slti rt _ _ => [rt]
  | .sltiu rt _ _ => [rt]
  | .andi rt _ _ => [rt]
  | .ori rt _ _ => [rt]
  | .xori rt _ _ => [rt]
  | .sll rd _ _ => [rd]
  | .srl rd _ _ => [rd]
  | .sra rd _ _ => [rd]
  | .sllv rd _ _ => [rd]
  | .srlv rd _ _ => [rd]
  | .srav rd _ _ => [rd]
  | .ror rd _ _ => [rd]
  | .rorr rd _ _ => [rd]
  | .mul rd rh _ _ => [rd, rh].filter (· ≠ 0)
  | .mulu rd rh _ _ => [rd, rh].filter (· ≠ 0)
  | .div rd rh _ _ => [rd, rh].filter (· ≠ 0)
  | .divu rd rh _ _ => [rd, rh].filter (· ≠ 0)
  | .clz rd _ _ => [rd]
  | .seb rd _ => [rd]
  | .seh rd _ => [rd]
  | .ext rt _ _ _ => [rt]
  | .movz rd _ _ => [rd]
  | .movn rd _ _ => [rd]
  | .movt rd _ => [rd]
  | .movf rd _ => [rd]
  | .call _ => [31]
  | .callr _ => [31]
  | .rcall _ => [31]
  | .ldi rt _ => [rt]
  | .ldihi _ => [s.ldireg.val]
  | .mfc1 rt _ => [rt]
  | .mfhc1 rt _ => [rt]
  | .mflc1 rt _ => [rt]
  | .ldb rt _ _ => [rt]
  | .ldbu rt _ _ => [rt]
  | .ldh rt _ _ => [rt]
  | .ldhu rt _ _ => [rt]
  | .ldw rt _ _ => [rt]
  | .ldwl rt _ _ => [rt]
  | .ldwr rt _ _ => [rt]
  | .ll rt _ _ => [rt]
  | .sc rt _ _ => [rt]
  | _ => []

/-- The floating-point slots an instruction may write: one for a single or a word, two for a double
(10_state.md R52). -/
def Instr.slotDests : Instr → List Fpr
  | .addS fd _ _ => [fd]
  | .subS fd _ _ => [fd]
  | .mulS fd _ _ => [fd]
  | .divS fd _ _ => [fd]
  | .sqrtS fd _ => [fd]
  | .absS fd _ => [fd]
  | .negS fd _ => [fd]
  | .movS fd _ => [fd]
  | .maddS fd _ _ _ => [fd]
  | .msubS fd _ _ _ => [fd]
  | .movzS fd _ _ => [fd]
  | .movnS fd _ _ => [fd]
  | .movtS fd _ => [fd]
  | .movfS fd _ => [fd]
  | .cvtSD fd _ => [fd]
  | .cvtSW fd _ => [fd]
  | .cvtWS fd _ => [fd]
  | .cvtWD fd _ => [fd]
  | .roundWS fd _ => [fd]
  | .roundWD fd _ => [fd]
  | .ceilWS fd _ => [fd]
  | .ceilWD fd _ => [fd]
  | .floorWS fd _ => [fd]
  | .floorWD fd _ => [fd]
  | .truncWS fd _ => [fd]
  | .truncWD fd _ => [fd]
  | .mtc1 _ fs => [fs]
  | .mtlc1 _ fs => [fs]
  | .mthc1 _ fs => [fs + 1]
  | .lwc1 ft _ _ => [ft]
  | .addD fd _ _ => [fd, fd + 1]
  | .subD fd _ _ => [fd, fd + 1]
  | .mulD fd _ _ => [fd, fd + 1]
  | .divD fd _ _ => [fd, fd + 1]
  | .sqrtD fd _ => [fd, fd + 1]
  | .absD fd _ => [fd, fd + 1]
  | .negD fd _ => [fd, fd + 1]
  | .movD fd _ => [fd, fd + 1]
  | .maddD fd _ _ _ => [fd, fd + 1]
  | .msubD fd _ _ _ => [fd, fd + 1]
  | .movzD fd _ _ => [fd, fd + 1]
  | .movnD fd _ _ => [fd, fd + 1]
  | .movtD fd _ => [fd, fd + 1]
  | .movfD fd _ => [fd, fd + 1]
  | .cvtDS fd _ => [fd, fd + 1]
  | .cvtDW fd _ => [fd, fd + 1]
  | .ldc1 ft _ _ => [ft, ft + 1]
  | _ => []

/-- The bytes an instruction stores to, a first address and a number of bytes, from the operands in the
state before it (20_memory.md R111): the effective address, and for stwl and stwr the aligned word
that holds it. -/
def Instr.storeRun (s : State) : Instr → Word × Nat
  | .stb _ imm rs => (s.gpr[rs] + imm.signExtend 32, 1)
  | .sth _ imm rs => (s.gpr[rs] + imm.signExtend 32, 2)
  | .stw _ imm rs => (s.gpr[rs] + imm.signExtend 32, 4)
  | .stwl _ imm rs => ((s.gpr[rs] + imm.signExtend 32) &&& 0xFFFFFFFC#32, 4)
  | .stwr _ imm rs => ((s.gpr[rs] + imm.signExtend 32) &&& 0xFFFFFFFC#32, 4)
  | .sc _ imm rs => (s.gpr[rs] + imm.signExtend 32, 4)
  | .swc1 _ imm rs => (s.gpr[rs] + imm.signExtend 32, 4)
  | .sdc1 _ imm rs => (s.gpr[rs] + imm.signExtend 32, 8)
  | _ => (0#32, 0)

/-- The instructions that name a next pc other than npc (41_control_flow.md R260). -/
def Instr.transfers : Instr → Bool
  | .jump _ => true
  | .call _ => true
  | .jumpr _ => true
  | .callr _ => true
  | .jeq .. => true
  | .jne .. => true
  | .jlez .. => true
  | .jgtz .. => true
  | .jltz .. => true
  | .jgez .. => true
  | .bc1t _ => true
  | .bc1f _ => true
  | .rcall _ => true
  | .ijmp .. => true
  | _ => false

/-- The host call, which names no next pc and does not advance: the resume does (43_trap_system.md
R312). -/
def Instr.isSyscall : Instr → Bool
  | .syscall _ => true
  | _ => false

/-- The comparisons, the only writers of cc (10_state.md R49). -/
def Instr.isComparison : Instr → Bool
  | .cEqS .. => true
  | .cEqD .. => true
  | .cOleS .. => true
  | .cOleD .. => true
  | .cOltS .. => true
  | .cOltD .. => true
  | .cUeqS .. => true
  | .cUeqD .. => true
  | .cUleS .. => true
  | .cUleD .. => true
  | .cUltS .. => true
  | .cUltD .. => true
  | .cUnS .. => true
  | .cUnD .. => true
  | _ => false

/-- The only writer of ldireg (10_state.md R54). -/
def Instr.isLdi : Instr → Bool
  | .ldi .. => true
  | _ => false

/-- The only writer of ijmpreg (10_state.md R55). -/
def Instr.isIjmphi : Instr → Bool
  | .ijmphi _ => true
  | _ => false

/-- The three transfers whose target comes from a register or from memory (10_state.md R48). -/
def Instr.takesAnyTarget : Instr → Bool
  | .jumpr _ => true
  | .callr _ => true
  | .ijmp .. => true
  | _ => false

/-- The double indices an instruction names (60_exceptions.md R490). -/
def Instr.doubleIndices : Instr → List Fpr
  | .addD fd fs ft => [fd, fs, ft]
  | .subD fd fs ft => [fd, fs, ft]
  | .mulD fd fs ft => [fd, fs, ft]
  | .divD fd fs ft => [fd, fs, ft]
  | .sqrtD fd fs => [fd, fs]
  | .absD fd fs => [fd, fs]
  | .negD fd fs => [fd, fs]
  | .movD fd fs => [fd, fs]
  | .maddD fd fr fs ft => [fd, fr, fs, ft]
  | .msubD fd fr fs ft => [fd, fr, fs, ft]
  | .cEqD fs ft => [fs, ft]
  | .cOleD fs ft => [fs, ft]
  | .cOltD fs ft => [fs, ft]
  | .cUeqD fs ft => [fs, ft]
  | .cUleD fs ft => [fs, ft]
  | .cUltD fs ft => [fs, ft]
  | .cUnD fs ft => [fs, ft]
  | .movzD fd fs _ => [fd, fs]
  | .movnD fd fs _ => [fd, fs]
  | .movtD fd fs => [fd, fs]
  | .movfD fd fs => [fd, fs]
  | .cvtDS fd _ => [fd]
  | .cvtSD _ fs => [fs]
  | .cvtDW fd _ => [fd]
  | .cvtWD _ fs => [fs]
  | .roundWD _ fs => [fs]
  | .ceilWD _ fs => [fs]
  | .floorWD _ fs => [fs]
  | .truncWD _ fs => [fs]
  | .mfhc1 _ fs => [fs]
  | .mthc1 _ fs => [fs]
  | .ldc1 ft _ _ => [ft]
  | .sdc1 ft _ _ => [ft]
  | _ => []

/-- The registers an instruction reads whatever the values, of those whose unwritten read is a fault
(10_state.md R58). A conditional FP move reads its source only when its guard holds, so it is not
listed for its source. -/
def Instr.markedReads : Instr → List MarkedReg
  | .movt .. => [.cc]
  | .movf .. => [.cc]
  | .bc1t _ => [.cc]
  | .bc1f _ => [.cc]
  | .movtS .. => [.cc]
  | .movtD .. => [.cc]
  | .movfS .. => [.cc]
  | .movfD .. => [.cc]
  | .ldihi _ => [.ldireg]
  | .ijmp .. => [.ijmpreg]
  | .addS _ fs ft => [.fpr fs, .fpr ft]
  | .subS _ fs ft => [.fpr fs, .fpr ft]
  | .mulS _ fs ft => [.fpr fs, .fpr ft]
  | .divS _ fs ft => [.fpr fs, .fpr ft]
  | .sqrtS _ fs => [.fpr fs]
  | .absS _ fs => [.fpr fs]
  | .negS _ fs => [.fpr fs]
  | .movS _ fs => [.fpr fs]
  | .maddS _ fr fs ft => [.fpr fs, .fpr ft, .fpr fr]
  | .msubS _ fr fs ft => [.fpr fs, .fpr ft, .fpr fr]
  | .addD _ fs ft => [.fpr fs, .fpr (fs + 1), .fpr ft, .fpr (ft + 1)]
  | .subD _ fs ft => [.fpr fs, .fpr (fs + 1), .fpr ft, .fpr (ft + 1)]
  | .mulD _ fs ft => [.fpr fs, .fpr (fs + 1), .fpr ft, .fpr (ft + 1)]
  | .divD _ fs ft => [.fpr fs, .fpr (fs + 1), .fpr ft, .fpr (ft + 1)]
  | .sqrtD _ fs => [.fpr fs, .fpr (fs + 1)]
  | .absD _ fs => [.fpr fs, .fpr (fs + 1)]
  | .negD _ fs => [.fpr fs, .fpr (fs + 1)]
  | .movD _ fs => [.fpr fs, .fpr (fs + 1)]
  | .maddD _ fr fs ft =>
    [.fpr fs, .fpr (fs + 1), .fpr ft, .fpr (ft + 1), .fpr fr, .fpr (fr + 1)]
  | .msubD _ fr fs ft =>
    [.fpr fs, .fpr (fs + 1), .fpr ft, .fpr (ft + 1), .fpr fr, .fpr (fr + 1)]
  | .cEqS fs ft => [.fpr fs, .fpr ft]
  | .cOleS fs ft => [.fpr fs, .fpr ft]
  | .cOltS fs ft => [.fpr fs, .fpr ft]
  | .cUeqS fs ft => [.fpr fs, .fpr ft]
  | .cUleS fs ft => [.fpr fs, .fpr ft]
  | .cUltS fs ft => [.fpr fs, .fpr ft]
  | .cUnS fs ft => [.fpr fs, .fpr ft]
  | .cEqD fs ft => [.fpr fs, .fpr (fs + 1), .fpr ft, .fpr (ft + 1)]
  | .cOleD fs ft => [.fpr fs, .fpr (fs + 1), .fpr ft, .fpr (ft + 1)]
  | .cOltD fs ft => [.fpr fs, .fpr (fs + 1), .fpr ft, .fpr (ft + 1)]
  | .cUeqD fs ft => [.fpr fs, .fpr (fs + 1), .fpr ft, .fpr (ft + 1)]
  | .cUleD fs ft => [.fpr fs, .fpr (fs + 1), .fpr ft, .fpr (ft + 1)]
  | .cUltD fs ft => [.fpr fs, .fpr (fs + 1), .fpr ft, .fpr (ft + 1)]
  | .cUnD fs ft => [.fpr fs, .fpr (fs + 1), .fpr ft, .fpr (ft + 1)]
  | .cvtDS _ fs => [.fpr fs]
  | .cvtSD _ fs => [.fpr fs, .fpr (fs + 1)]
  | .cvtSW _ fs => [.fpr fs]
  | .cvtDW _ fs => [.fpr fs]
  | .cvtWS _ fs => [.fpr fs]
  | .roundWS _ fs => [.fpr fs]
  | .ceilWS _ fs => [.fpr fs]
  | .floorWS _ fs => [.fpr fs]
  | .truncWS _ fs => [.fpr fs]
  | .cvtWD _ fs => [.fpr fs, .fpr (fs + 1)]
  | .roundWD _ fs => [.fpr fs, .fpr (fs + 1)]
  | .ceilWD _ fs => [.fpr fs, .fpr (fs + 1)]
  | .floorWD _ fs => [.fpr fs, .fpr (fs + 1)]
  | .truncWD _ fs => [.fpr fs, .fpr (fs + 1)]
  | .mfc1 _ fs => [.fpr fs]
  | .mflc1 _ fs => [.fpr fs]
  | .mfhc1 _ fs => [.fpr (fs + 1)]
  | .swc1 ft _ _ => [.fpr ft]
  | .sdc1 ft _ _ => [.fpr ft, .fpr (ft + 1)]
  | _ => []

/-- The data access that needs alignment: the address and the multiple (20_memory.md R107). -/
def Instr.alignedAccess (s : State) : Instr → Option (Word × Nat)
  | .ldh _ imm rs => some (s.gpr[rs] + imm.signExtend 32, 2)
  | .ldhu _ imm rs => some (s.gpr[rs] + imm.signExtend 32, 2)
  | .sth _ imm rs => some (s.gpr[rs] + imm.signExtend 32, 2)
  | .ldw _ imm rs => some (s.gpr[rs] + imm.signExtend 32, 4)
  | .stw _ imm rs => some (s.gpr[rs] + imm.signExtend 32, 4)
  | .ll _ imm rs => some (s.gpr[rs] + imm.signExtend 32, 4)
  | .sc _ imm rs => some (s.gpr[rs] + imm.signExtend 32, 4)
  | .lwc1 _ imm rs => some (s.gpr[rs] + imm.signExtend 32, 4)
  | .swc1 _ imm rs => some (s.gpr[rs] + imm.signExtend 32, 4)
  | .ldc1 _ imm rs => some (s.gpr[rs] + imm.signExtend 32, 4)
  | .sdc1 _ imm rs => some (s.gpr[rs] + imm.signExtend 32, 4)
  | .ijmp rs imm => some ((s.ijmpreg.val ||| imm.setWidth 32) + s.gpr[rs] * 4#32, 4)
  | _ => none

/-- The bytes an instruction needs the port to admit: a first address and a number
(20_memory.md R102, R111). -/
def Instr.accessRun (s : State) : Instr → Word × Nat
  | .ldb _ imm rs => (s.gpr[rs] + imm.signExtend 32, 1)
  | .ldbu _ imm rs => (s.gpr[rs] + imm.signExtend 32, 1)
  | .stb _ imm rs => (s.gpr[rs] + imm.signExtend 32, 1)
  | .ldh _ imm rs => (s.gpr[rs] + imm.signExtend 32, 2)
  | .ldhu _ imm rs => (s.gpr[rs] + imm.signExtend 32, 2)
  | .sth _ imm rs => (s.gpr[rs] + imm.signExtend 32, 2)
  | .ldw _ imm rs => (s.gpr[rs] + imm.signExtend 32, 4)
  | .stw _ imm rs => (s.gpr[rs] + imm.signExtend 32, 4)
  | .ll _ imm rs => (s.gpr[rs] + imm.signExtend 32, 4)
  | .sc _ imm rs => (s.gpr[rs] + imm.signExtend 32, 4)
  | .lwc1 _ imm rs => (s.gpr[rs] + imm.signExtend 32, 4)
  | .swc1 _ imm rs => (s.gpr[rs] + imm.signExtend 32, 4)
  | .ldc1 _ imm rs => (s.gpr[rs] + imm.signExtend 32, 8)
  | .sdc1 _ imm rs => (s.gpr[rs] + imm.signExtend 32, 8)
  | .ldwl _ imm rs => ((s.gpr[rs] + imm.signExtend 32) &&& 0xFFFFFFFC#32, 4)
  | .ldwr _ imm rs => ((s.gpr[rs] + imm.signExtend 32) &&& 0xFFFFFFFC#32, 4)
  | .stwl _ imm rs => ((s.gpr[rs] + imm.signExtend 32) &&& 0xFFFFFFFC#32, 4)
  | .stwr _ imm rs => ((s.gpr[rs] + imm.signExtend 32) &&& 0xFFFFFFFC#32, 4)
  | .ijmp rs imm => ((s.ijmpreg.val ||| imm.setWidth 32) + s.gpr[rs] * 4#32, 4)
  | _ => (0#32, 0)

end Sys2Proof
end

