-- ==== Sys2Proof/WellFormed.lean ====
section
/-! DEFINITION. Which terms of `Instr` are instructions. The types bound every register index and
immediate; what is left is the pair of numbers of ext: a position 0 to 31 and a size 1 to 32
(40_integer.md R234, 30_encoding.md R151). That the field may run past bit 31 is no matter of form:
such an instruction decodes and faults. -/

namespace Sys2Proof

/-- The operands are in the ranges their fields can hold. -/
def Instr.WellFormed : Instr → Bool
  | .add .. => true
  | .sub .. => true
  | .and .. => true
  | .or .. => true
  | .xor .. => true
  | .nor .. => true
  | .slt .. => true
  | .sltu .. => true
  | .addi .. => true
  | .slti .. => true
  | .sltiu .. => true
  | .andi .. => true
  | .ori .. => true
  | .xori .. => true
  | .sll .. => true
  | .srl .. => true
  | .sra .. => true
  | .sllv .. => true
  | .srlv .. => true
  | .srav .. => true
  | .ror .. => true
  | .rorr .. => true
  | .mul .. => true
  | .mulu .. => true
  | .div .. => true
  | .divu .. => true
  | .clz .. => true
  | .seb .. => true
  | .seh .. => true
  | .ext _ _ pos size => decide (pos < 32) && decide (1 ≤ size) && decide (size ≤ 32)
  | .movz .. => true
  | .movn .. => true
  | .movt .. => true
  | .movf .. => true
  | .jump .. => true
  | .call .. => true
  | .jumpr .. => true
  | .callr .. => true
  | .jeq .. => true
  | .jne .. => true
  | .jlez .. => true
  | .jgtz .. => true
  | .jltz .. => true
  | .jgez .. => true
  | .bc1t .. => true
  | .bc1f .. => true
  | .rcall .. => true
  | .ijmphi .. => true
  | .ijmp .. => true
  | .ldi .. => true
  | .ldihi .. => true
  | .teq .. => true
  | .brk .. => true
  | .syscall .. => true
  | .addS .. => true
  | .addD .. => true
  | .subS .. => true
  | .subD .. => true
  | .mulS .. => true
  | .mulD .. => true
  | .divS .. => true
  | .divD .. => true
  | .sqrtS .. => true
  | .sqrtD .. => true
  | .absS .. => true
  | .absD .. => true
  | .negS .. => true
  | .negD .. => true
  | .movS .. => true
  | .movD .. => true
  | .maddS .. => true
  | .maddD .. => true
  | .msubS .. => true
  | .msubD .. => true
  | .cEqS .. => true
  | .cEqD .. => true
  | .cOleS .. => true
  | .cOleD .. => true
  | .cOltS .. => true
  | .cOltD .. => true
  | .cUeqS .. => true
  | .cUeqD .. => true
  | .cUleS .. => true
  | .cUleD .. => true
  | .cUltS .. => true
  | .cUltD .. => true
  | .cUnS .. => true
  | .cUnD .. => true
  | .movzS .. => true
  | .movzD .. => true
  | .movnS .. => true
  | .movnD .. => true
  | .movtS .. => true
  | .movtD .. => true
  | .movfS .. => true
  | .movfD .. => true
  | .cvtDS .. => true
  | .cvtSD .. => true
  | .cvtSW .. => true
  | .cvtDW .. => true
  | .cvtWS .. => true
  | .cvtWD .. => true
  | .roundWS .. => true
  | .roundWD .. => true
  | .ceilWS .. => true
  | .ceilWD .. => true
  | .floorWS .. => true
  | .floorWD .. => true
  | .truncWS .. => true
  | .truncWD .. => true
  | .mfc1 .. => true
  | .mtc1 .. => true
  | .mfhc1 .. => true
  | .mflc1 .. => true
  | .mthc1 .. => true
  | .mtlc1 .. => true
  | .ldb .. => true
  | .ldbu .. => true
  | .ldh .. => true
  | .ldhu .. => true
  | .ldw .. => true
  | .ldwl .. => true
  | .ldwr .. => true
  | .stb .. => true
  | .sth .. => true
  | .stw .. => true
  | .stwl .. => true
  | .stwr .. => true
  | .ll .. => true
  | .sc .. => true
  | .lwc1 .. => true
  | .ldc1 .. => true
  | .swc1 .. => true
  | .sdc1 .. => true

end Sys2Proof
end

