-- ==== Sys2Proof/Certificates/Slice0/Obligations.lean ====
section
/-! DEFINITION. The statements for the provers, one Prop each. A result statement is also the statement
that the instruction completes and its frame: its conclusion is the next state, written as the old
state with the fields that change. `s.Advances` says that the pc is not 0xFFFFFFFC; what happens
there is `Obligations.NextPcNotZero`. -/

open Sys2Proof Sys2Proof.Machine

/-! ## Encoding -/

/-- Decoding the word of a well-formed instruction gives the instruction back (30_encoding.md R140, R166). -/
def Obligations.DecodeOfEncode : Prop :=
  ∀ i : Instr, i.WellFormed = true → decode (encode i) = .ok i

/-- A word that decodes is the word of its instruction, which is well formed: no bit of a word is dropped
(30_encoding.md R140, R166). -/
def Obligations.EncodeOfDecode : Prop :=
  ∀ (w : Word) (i : Instr), decode w = .ok i → i.WellFormed = true ∧ encode i = w

/-- Decoding is the table (30_encoding.md R157, R158, which the spec derives from its table and decision D44): no
word matches two rows, a word that matches one is that row's instruction, and a word that matches
none is no instruction, by name. -/
def Obligations.DecodingIsTheTable : Prop :=
  ∀ w : Word,
    (∀ (j k : Nat) (r q : Row), opcodeTable[j]? = some r → opcodeTable[k]? = some q →
      r.Matches w = true → q.Matches w = true → j = k) ∧
    (∀ r ∈ opcodeTable, r.Matches w = true → decode w = .ok (r.build w)) ∧
    ((∀ r ∈ opcodeTable, r.Matches w = false) → decode w = .error (.reservedInstruction w))

/-- One word of each family, written out from its format, decodes to its instruction. -/
def Obligations.DecodeWords : Prop :=
  decode (0b000000_00001_00010_00011_00000_100000#32) = .ok (.add 3 1 2) ∧
  decode (0b011111_00001_00010_01011_01000_000000#32) = .ok (.ext 2 1 8 12) ∧
  decode (0b000101_01000_00000_1111111111111101#32) = .ok (.jne 8 0 0xFFFD#16) ∧
  decode (0b000010_00000100000000000001000000#32) = .ok (.jump 0x0100040#26) ∧
  decode (0b011010_00100_000000000_000000100000#32) = .ok (.ijmp 4 0x020#12) ∧
  decode (0b000000_00000000000000000000_001100#32) = .ok (.syscall 0#20) ∧
  decode (0b010001_10001_00100_00010_00000_000000#32) = .ok (.addD 0 2 4) ∧
  decode (0b010011_00011_00010_00001_00100_100000#32) = .ok (.maddS 4 3 1 2) ∧
  decode (0b010001_10000_00010_00001_00000_110010#32) = .ok (.cEqS 1 2) ∧
  decode (0b010001_00011_00101_00010_00000_000000#32) = .ok (.mfhc1 5 2) ∧
  decode (0b100011_00001_00011_1111111111111100#32) = .ok (.ldw 3 0xFFFC#16 1)

/-! ## The step -/

/-- A step runs the decoded instruction: when the machine runs and the block is to act, the pc is a
multiple of 4, the port admits the word there, no store of the run has written it (or stores are
visible to fetch), and the word decodes, the step is the instruction at that state. And after a host
call the block resumes at npc, or raises UndefinedJumpTarget for npc = 0 with the word of the syscall
(43_trap_system.md R312; that the resume is a step of its own is the model's reading, log 13, log 16). -/
def Obligations.StepRunsDecoded : Prop :=
  (∀ (s : State) (i : Instr), s.status = .running → s.control = .block → s.pc.toNat % 4 = 0 →
    s.Admits s.pc 4 →
    (s.emb.smcPolicy = .fault → ∀ k < 4, (s.pc + BitVec.ofNat 32 k).toNat ∉ s.stored) →
    decode (s.wordOf s.pc) = .ok i → step s = exec i s) ∧
  ∀ (s : State) (w : Word), s.status = .running → s.control = .resume w →
    (s.Advances → step s = .next { s with pc := s.pc + 4#32, control := .block }) ∧
    (¬ s.Advances → step s = .next { s with status := .halted .undefinedJumpTarget s.pc (some w) })

/-- The checks of the fetch, in their order: a misaligned pc, a word the port does not admit, a byte a
store of the run has written, a word that is no instruction (60_exceptions.md R488, R493, R494, R496,
R497, the spec's decisions D7, D33, D34, D39, D44). A halted or exited machine has no next step
(10_state.md R62); the model answers with a fault of its own (log 6), as it does when stuck (log 7). -/
def Obligations.FetchChecks : Prop :=
  ∀ s : State,
    (s.status ≠ .running → step s = .fault .notRunning) ∧
    (s.status = .running → s.control = .block →
    (s.pc.toNat % 4 ≠ 0 →
      step s = .next { s with status := .halted .misalignedFetch s.pc none }) ∧
    (s.pc.toNat % 4 = 0 → ¬ s.Admits s.pc 4 → step s = .fault (.stuckFetch s.pc)) ∧
    (s.pc.toNat % 4 = 0 → s.Admits s.pc 4 → s.emb.smcPolicy = .fault →
      (∃ k < 4, (s.pc + BitVec.ofNat 32 k).toNat ∈ s.stored) →
      step s = .next { s with status := .halted .selfModifyingCode s.pc none }) ∧
    (s.pc.toNat % 4 = 0 → s.Admits s.pc 4 →
      (s.emb.smcPolicy = .fault → ∀ k < 4, (s.pc + BitVec.ofNat 32 k).toNat ∉ s.stored) →
      (∀ r ∈ opcodeTable, r.Matches (s.wordOf s.pc) = false) →
      step s = .next { s with status := .halted .reservedInstruction s.pc (some (s.wordOf s.pc)) }))

/-- The word placed by `withFetchWord` is the one the next step runs (log 23). -/
def Obligations.WithFetchWordRuns : Prop :=
  ∀ (s : State) (i : Instr), s.mem.wf → i.WellFormed = true →
    step (s.withFetchWord 32 (encode i).toNat) = exec i (s.withFetchWord 32 (encode i).toNat)

/-- Faults are precise (60_exceptions.md R480): a step that halts leaves the state as it was but for the
run status, which holds the fault, the pc and the word: that fetched at the pc, absent exactly for
MisalignedFetch and SelfModifyingCode, or, at the resume after a host call, that of the syscall (log
16). Apart stands the host's own fatal condition in its turn, with the pc and word of the syscall; the
rest of it is `Obligations.CallEndsRun`. -/
def Obligations.FaultsArePrecise : Prop :=
  ∀ (s t : State) (tr : Trap) (pc : Word) (w : Option Word), s.status = .running →
    step s = .next t → t.status = .halted tr pc w →
    (tr = .hostFatal ∧ pc = s.pc ∧ ∃ word, s.control = .host word ∧ w = some word) ∨
    (tr ≠ .hostFatal ∧ t = { s with status := .halted tr s.pc w } ∧
      ((s.control = .block ∧ (w = none ↔ tr = .misalignedFetch ∨ tr = .selfModifyingCode) ∧
          ∀ x, w = some x → x = s.wordOf s.pc) ∨
        ∃ word, s.control = .resume word ∧ tr = .undefinedJumpTarget ∧ w = some word))

/-- Every step keeps the invariant: memory and stored addresses in canonical form, and no store ever
reached a byte the port does not admit. -/
def Obligations.StepKeepsInv : Prop :=
  ∀ s t : State, s.Inv → step s = .next t → t.Inv

/-- The machine after reset: the values the spec fixes (10_state.md R63), and the invariant. -/
def Obligations.ResetState : Prop :=
  (∀ r : Gpr, State.reset.gpr[r] = 0#32) ∧ State.reset.status = .running ∧
    State.reset.hi.written = false ∧ State.reset.lo.written = false ∧
    State.reset.cc.written = false ∧ State.reset.ldireg.written = false ∧
    State.reset.ijmpreg.written = false ∧ (∀ j : Fpr, State.reset.fpr[j].written = false) ∧
    State.reset.Inv

/-- No instruction reads or writes hi or lo (10_state.md R45): with other contents of the two, a step
does the same and leaves those contents. -/
def Obligations.HiLoOutOfReach : Prop :=
  ∀ (s : State) (h l : Marked Word),
    step { s with hi := h, lo := l } = mapNext (fun t => { t with hi := h, lo := l }) (step s)

/-- cc is written only by the fourteen comparisons (10_state.md R49), ldireg only by ldi (R54), ijmpreg only by ijmphi
(R55), a mark once set stays set (R58, the spec's decision D20), and no instruction changes a
parameter of the run. -/
def Obligations.SpecialRegisterWriters : Prop :=
  ∀ (i : Instr) (s t : State), exec i s = .next t →
    (i.isComparison = false → t.cc = s.cc) ∧ (i.isLdi = false → t.ldireg = s.ldireg) ∧
      (i.isIjmphi = false → t.ijmpreg = s.ijmpreg) ∧
      (∀ m : MarkedReg, s.isWritten m = true → t.isWritten m = true) ∧ t.emb = s.emb

/-- An instruction leaves every general register but those it may write (10_state.md R44, 40_integer.md R204
for the discard slot). -/
def Obligations.GprFrame : Prop :=
  ∀ (i : Instr) (s t : State), exec i s = .next t →
    ∀ r : Gpr, r ∉ i.gprDests s → t.gpr[r] = s.gpr[r]

/-- An instruction leaves every floating-point slot but those it may write: a single or half of a double
one slot, a double two (10_state.md R52). -/
def Obligations.SlotFrame : Prop :=
  ∀ (i : Instr) (s t : State), exec i s = .next t →
    ∀ j : Fpr, j ∉ i.slotDests → t.fpr[j] = s.fpr[j]

/-- An instruction leaves every byte but those of its store, and marks no other byte as stored; an
instruction that stores nothing leaves all of memory. -/
def Obligations.MemoryFrame : Prop :=
  ∀ (i : Instr) (s t : State), exec i s = .next t →
    (∀ a : Word, (∀ k < (i.storeRun s).2, a ≠ (i.storeRun s).1 + BitVec.ofNat 32 k) →
      t.byteAt a = s.byteAt a) ∧
    (∀ n : Nat, n ∈ t.stored →
      n ∈ s.stored ∨ ∃ k < (i.storeRun s).2, n = ((i.storeRun s).1 + BitVec.ofNat 32 k).toNat) ∧
    ((i.storeRun s).2 = 0 → t.mem = s.mem ∧ t.stored = s.stored)

/-- No pc is 0 when the block is to act after a step, nor after an instruction other than the host call
(41_control_flow.md R260, 60_exceptions.md R484, the spec's decision D6): an instruction that names no
target and would complete at another pc raises UndefinedJumpTarget at 0xFFFFFFFC, and writes nothing.
A syscall is checked at its resume (`Obligations.StepRunsDecoded`). -/
def Obligations.NextPcNotZero : Prop :=
  ∀ s t : State,
    (step s = .next t → t.status = .running → t.control = .block → t.pc ≠ 0#32) ∧
    ∀ i : Instr, i.isSyscall = false →
      (exec i s = .next t → t.status = .running → t.pc ≠ 0#32) ∧
      ∀ pc : Word, i.transfers = false → s.pc + 4#32 = 0#32 → pc + 4#32 ≠ 0#32 →
        exec i { s with pc := pc } = .next t → t.status = .running → Raises i s .undefinedJumpTarget

/-- From an aligned pc only jumpr, callr and ijmp can reach an unaligned one (10_state.md R48,
41_control_flow.md R265). -/
def Obligations.TargetsStayAligned : Prop :=
  ∀ (i : Instr) (s t : State), i.takesAnyTarget = false → s.pc.toNat % 4 = 0 →
    exec i s = .next t → t.pc.toNat % 4 = 0

/-! ## Integer instructions -/

/-- add, sub, and, or, xor, nor, slt, sltu (40_integer.md R205 to R212), with their encodings. -/
def Obligations.RegisterArithmetic : Prop :=
  ∀ (s : State) (rd rs rt : Gpr), s.Advances →
    let pc := s.pc + 4#32
    let a := s.gpr[rs]
    let b := s.gpr[rt]
    exec (.add rd rs rt) s = .next { s with gpr := s.gpr.set rd (a + b), pc := pc } ∧
    exec (.sub rd rs rt) s = .next { s with gpr := s.gpr.set rd (a - b), pc := pc } ∧
    exec (.and rd rs rt) s = .next { s with gpr := s.gpr.set rd (a &&& b), pc := pc } ∧
    exec (.or rd rs rt) s = .next { s with gpr := s.gpr.set rd (a ||| b), pc := pc } ∧
    exec (.xor rd rs rt) s = .next { s with gpr := s.gpr.set rd (a ^^^ b), pc := pc } ∧
    exec (.nor rd rs rt) s = .next { s with gpr := s.gpr.set rd (~~~(a ||| b)), pc := pc } ∧
    exec (.slt rd rs rt) s =
      .next { s with gpr := s.gpr.set rd (if a.toInt < b.toInt then 1#32 else 0#32), pc := pc } ∧
    exec (.sltu rd rs rt) s =
      .next { s with gpr := s.gpr.set rd (if a.toNat < b.toNat then 1#32 else 0#32), pc := pc } ∧
    encode (.add rd rs rt) = 0#6 ++ reg rs ++ reg rt ++ reg rd ++ 0#5 ++ 0x20#6 ∧
    encode (.sub rd rs rt) = 0#6 ++ reg rs ++ reg rt ++ reg rd ++ 0#5 ++ 0x22#6 ∧
    encode (.and rd rs rt) = 0#6 ++ reg rs ++ reg rt ++ reg rd ++ 0#5 ++ 0x24#6 ∧
    encode (.or rd rs rt) = 0#6 ++ reg rs ++ reg rt ++ reg rd ++ 0#5 ++ 0x25#6 ∧
    encode (.xor rd rs rt) = 0#6 ++ reg rs ++ reg rt ++ reg rd ++ 0#5 ++ 0x26#6 ∧
    encode (.nor rd rs rt) = 0#6 ++ reg rs ++ reg rt ++ reg rd ++ 0#5 ++ 0x27#6 ∧
    encode (.slt rd rs rt) = 0#6 ++ reg rs ++ reg rt ++ reg rd ++ 0#5 ++ 0x2A#6 ∧
    encode (.sltu rd rs rt) = 0#6 ++ reg rs ++ reg rt ++ reg rd ++ 0#5 ++ 0x2B#6

/-- addi, slti, sltiu, andi, ori, xori (40_integer.md R213 to R218, the spec's decision D14): the immediate is
sign-extended for the first three and zero-extended for the others. -/
def Obligations.Immediates : Prop :=
  ∀ (s : State) (rt rs : Gpr) (imm : BitVec 16), s.Advances →
    let pc := s.pc + 4#32
    let a := s.gpr[rs]
    let e := imm.signExtend 32
    exec (.addi rt rs imm) s = .next { s with gpr := s.gpr.set rt (a + e), pc := pc } ∧
    exec (.slti rt rs imm) s =
      .next { s with gpr := s.gpr.set rt (if a.toInt < imm.toInt then 1#32 else 0#32), pc := pc } ∧
    exec (.sltiu rt rs imm) s =
      .next { s with gpr := s.gpr.set rt (if a.toNat < e.toNat then 1#32 else 0#32), pc := pc } ∧
    exec (.andi rt rs imm) s = .next { s with gpr := s.gpr.set rt (a &&& (0#16 ++ imm)), pc := pc } ∧
    exec (.ori rt rs imm) s = .next { s with gpr := s.gpr.set rt (a ||| (0#16 ++ imm)), pc := pc } ∧
    exec (.xori rt rs imm) s = .next { s with gpr := s.gpr.set rt (a ^^^ (0#16 ++ imm)), pc := pc }

/-- The shifts and rotates by a field and by a register, of which the low 5 bits count (40_integer.md R219 to
R226, the spec's decisions D2 and D13). -/
def Obligations.ShiftsAndRotates : Prop :=
  ∀ (s : State) (rd rt rs : Gpr) (sa : Fin 32), s.Advances →
    let pc := s.pc + 4#32
    let v := s.gpr[rt]
    let n := s.gpr[rs].toNat % 32
    exec (.sll rd rt sa) s = .next { s with gpr := s.gpr.set rd (v <<< sa.val), pc := pc } ∧
    exec (.srl rd rt sa) s = .next { s with gpr := s.gpr.set rd (v >>> sa.val), pc := pc } ∧
    exec (.sra rd rt sa) s = .next { s with gpr := s.gpr.set rd (v.sshiftRight sa.val), pc := pc } ∧
    exec (.sllv rd rt rs) s = .next { s with gpr := s.gpr.set rd (v <<< n), pc := pc } ∧
    exec (.srlv rd rt rs) s = .next { s with gpr := s.gpr.set rd (v >>> n), pc := pc } ∧
    exec (.srav rd rt rs) s = .next { s with gpr := s.gpr.set rd (v.sshiftRight n), pc := pc } ∧
    exec (.ror rd rt sa) s = .next { s with gpr := s.gpr.set rd (v.rotateRight sa.val), pc := pc } ∧
    exec (.rorr rd rt rs) s = .next { s with gpr := s.gpr.set rd (v.rotateRight n), pc := pc }

/-- mul and mulu (40_integer.md R202): the two words they give to the low and the high destination,
concatenated, are the exact 64-bit signed or unsigned product. Each destination takes its word when
the two differ and are not 0. -/
def Obligations.MultiplyReconstructs : Prop :=
  ∀ (s : State) (rd rh rs rt : Gpr), s.Advances → rd ≠ 0 → rh ≠ 0 → rd ≠ rh →
    (∃ lo hi : Word, (hi ++ lo).toInt = s.gpr[rs].toInt * s.gpr[rt].toInt ∧
      -2 ^ 62 + 2 ^ 31 ≤ (hi ++ lo).toInt ∧ (hi ++ lo).toInt ≤ 2 ^ 62 ∧
      exec (.mul rd rh rs rt) s =
        .next { s with gpr := (s.gpr.set rd lo).set rh hi, pc := s.pc + 4#32 }) ∧
    ∃ lo hi : Word, (hi ++ lo).toNat = s.gpr[rs].toNat * s.gpr[rt].toNat ∧
      (hi ++ lo).toNat ≤ (2 ^ 32 - 1) ^ 2 ∧
      exec (.mulu rd rh rs rt) s =
        .next { s with gpr := (s.gpr.set rd lo).set rh hi, pc := s.pc + 4#32 }

/-- div and divu (40_integer.md R203, R229, R230, 60_exceptions.md R485, R486; the spec's decisions D8 to D10): the
quotient is rounded toward zero and the remainder has the sign of the dividend; a divisor 0 and
-2^31 / -1 are the faults, whatever the destinations and before any write. -/
def Obligations.Divide : Prop :=
  ∀ (s : State) (rd rh rs rt : Gpr),
    (s.gpr[rt] = 0#32 → Raises (.div rd rh rs rt) s .divideByZero ∧
      Raises (.divu rd rh rs rt) s .divideByZero) ∧
    (s.gpr[rs] = 0x80000000#32 → s.gpr[rt] = 0xFFFFFFFF#32 →
      Raises (.div rd rh rs rt) s .divideOverflow ∧ ¬ Raises (.divu rd rh rs rt) s .divideOverflow) ∧
    (s.Advances → rd ≠ 0 → rh ≠ 0 → rd ≠ rh → s.gpr[rt] ≠ 0#32 →
    (¬ (s.gpr[rs] = 0x80000000#32 ∧ s.gpr[rt] = 0xFFFFFFFF#32) →
      ∃ q r : Word, s.gpr[rs].toInt = q.toInt * s.gpr[rt].toInt + r.toInt ∧
        |r.toInt| < |s.gpr[rt].toInt| ∧ (0 ≤ s.gpr[rs].toInt → 0 ≤ r.toInt) ∧
        (s.gpr[rs].toInt ≤ 0 → r.toInt ≤ 0) ∧
        exec (.div rd rh rs rt) s =
          .next { s with gpr := (s.gpr.set rd q).set rh r, pc := s.pc + 4#32 }) ∧
    ∃ q r : Word, s.gpr[rs].toNat = q.toNat * s.gpr[rt].toNat + r.toNat ∧
      r.toNat < s.gpr[rt].toNat ∧
      exec (.divu rd rh rs rt) s =
        .next { s with gpr := (s.gpr.set rd q).set rh r, pc := s.pc + 4#32 })

/-- The discard slot and the draw (40_integer.md R204, the spec's decision D11): a destination 0 is not written,
and of two equal destinations that are not 0 the register ends with one of the two results. The two
results are the same ones for every choice of destinations. -/
def Obligations.DiscardAndDraw : Prop :=
  ∀ (s : State) (rs rt : Gpr) (i : Gpr → Gpr → Instr), s.Advances →
    (i = (fun rd rh => .mul rd rh rs rt) ∨ i = (fun rd rh => .mulu rd rh rs rt) ∨
      (i = (fun rd rh => .div rd rh rs rt) ∧ s.gpr[rt] ≠ 0#32 ∧
        ¬ (s.gpr[rs] = 0x80000000#32 ∧ s.gpr[rt] = 0xFFFFFFFF#32)) ∨
      (i = (fun rd rh => .divu rd rh rs rt) ∧ s.gpr[rt] ≠ 0#32)) →
    ∃ low high : Word,
      (∀ rd rh : Gpr, rd ≠ 0 → rh ≠ 0 → rd ≠ rh →
        exec (i rd rh) s =
          .next { s with gpr := (s.gpr.set rd low).set rh high, pc := s.pc + 4#32 }) ∧
      (∀ rd : Gpr, rd ≠ 0 →
        exec (i rd 0) s = .next { s with gpr := s.gpr.set rd low, pc := s.pc + 4#32 }) ∧
      (∀ rh : Gpr, rh ≠ 0 →
        exec (i 0 rh) s = .next { s with gpr := s.gpr.set rh high, pc := s.pc + 4#32 }) ∧
      exec (i 0 0) s = .next { s with pc := s.pc + 4#32 } ∧
      ∀ r : Gpr, r ≠ 0 → ∃ (v : Word) (d : Nat), (v = low ∨ v = high) ∧
        exec (i r r) s = .next { s with gpr := s.gpr.set r v, pc := s.pc + 4#32, draws := d }

/-- clz, seb, seh (40_integer.md R231 to R233), with their encodings: clz counts the zeros above the highest 1
and gives 32 for 0. -/
def Obligations.BitManipulation : Prop :=
  ∀ (s : State) (rd rs : Gpr) (ign : BitVec 5), s.Advances →
    (∃ n ≤ 32, exec (.clz rd rs ign) s =
        .next { s with gpr := s.gpr.set rd (BitVec.ofNat 32 n), pc := s.pc + 4#32 } ∧
      (∀ k < 32, 32 - n ≤ k → s.gpr[rs].getLsbD k = false) ∧
      (n < 32 → s.gpr[rs].getLsbD (31 - n) = true)) ∧
    exec (.seb rd rs) s =
      .next { s with
        gpr := s.gpr.set rd (BitVec.signExtend 32 (s.gpr[rs].extractLsb' 0 8)), pc := s.pc + 4#32 } ∧
    exec (.seh rd rs) s =
      .next { s with
        gpr := s.gpr.set rd (BitVec.signExtend 32 (s.gpr[rs].extractLsb' 0 16)), pc := s.pc + 4#32 } ∧
    encode (.clz rd rs ign) = 0x1C#6 ++ reg rs ++ ign ++ reg rd ++ 0#5 ++ 0x20#6 ∧
    encode (.seb rd rs) = 0x1F#6 ++ 0#5 ++ reg rs ++ reg rd ++ 0x10#5 ++ 0x20#6 ∧
    encode (.seh rd rs) = 0x1F#6 ++ 0#5 ++ reg rs ++ reg rd ++ 0x18#5 ++ 0x20#6

/-- ext (40_integer.md R234, the spec's decision D15): the field x[rs][pos+size-1 : pos], zero-extended, and the
fault IllegalExtField when it runs past bit 31 (60_exceptions.md R491). -/
def Obligations.ExtractField : Prop :=
  ∀ (s : State) (rt rs : Gpr) (pos size : Nat), (Instr.ext rt rs pos size).WellFormed = true →
    (32 < pos + size → Raises (.ext rt rs pos size) s .illegalExtField) ∧
    (pos + size ≤ 32 → s.Advances →
      ∃ v : Word, exec (.ext rt rs pos size) s =
          .next { s with gpr := s.gpr.set rt v, pc := s.pc + 4#32 } ∧
        ∀ k < 32, v.getLsbD k = (decide (k < size) && s.gpr[rs].getLsbD (pos + k)))

/-- movz, movn, movt, movf (40_integer.md R235 to R238, the spec's decision D16): the guard, and for the last two
the fault UnwrittenState before the first comparison. -/
def Obligations.ConditionalMoves : Prop :=
  ∀ (s : State) (rd rs rt : Gpr),
    let moved : State := { s with gpr := s.gpr.set rd s.gpr[rs], pc := s.pc + 4#32 }
    let kept : State := { s with pc := s.pc + 4#32 }
    (s.Advances → exec (.movz rd rs rt) s = .next (if s.gpr[rt] = 0#32 then moved else kept)) ∧
    (s.Advances → exec (.movn rd rs rt) s = .next (if s.gpr[rt] ≠ 0#32 then moved else kept)) ∧
    (s.Advances → s.cc.written = true →
      exec (.movt rd rs) s = .next (if s.cc.val = true then moved else kept)) ∧
    (s.Advances → s.cc.written = true →
      exec (.movf rd rs) s = .next (if s.cc.val = false then moved else kept)) ∧
    (s.cc.written = false → Raises (.movt rd rs) s (.unwrittenState .cc) ∧
      Raises (.movf rd rs) s (.unwrittenState .cc))

/-! ## Control transfer and the compact family -/

/-- jump and jumpr (41_control_flow.md R267, R269), with their encodings: to the region target and to x[rs], or
the fault UndefinedJumpTarget for a target 0. -/
def Obligations.Jumps : Prop :=
  ∀ (s : State) (rs : Gpr) (imm : BitVec 26),
    let t : Word := (s.pc + 4#32).extractLsb' 28 4 ++ imm ++ 0#2
    (t ≠ 0#32 → exec (.jump imm) s = .next { s with pc := t }) ∧
    (t = 0#32 → Raises (.jump imm) s .undefinedJumpTarget) ∧
    (s.gpr[rs] ≠ 0#32 → exec (.jumpr rs) s = .next { s with pc := s.gpr[rs] }) ∧
    (s.gpr[rs] = 0#32 → Raises (.jumpr rs) s .undefinedJumpTarget) ∧
    encode (.jump imm) = 0x02#6 ++ imm ∧
    encode (.jumpr rs) = 0#6 ++ reg rs ++ 0#5 ++ 0#5 ++ 0#5 ++ 0x08#6

/-- call, callr and rcall link npc to x[31] and go to their target, read before the link is written, or raise
UndefinedJumpTarget and write nothing (41_control_flow.md R264, R268, R270, 42_compact.md R291; the
spec's decisions D4, D6 and D49). -/
def Obligations.Calls : Prop :=
  ∀ (s : State) (i : Instr) (t : Word),
    ((∃ imm : BitVec 26, i = .call imm ∧ t = (s.pc + 4#32).extractLsb' 28 4 ++ imm ++ 0#2) ∨
      (∃ rs : Gpr, i = .callr rs ∧ t = s.gpr[rs]) ∨
      (∃ imm : BitVec 16, i = .rcall imm ∧ t = s.pc + 4#32 + (imm.signExtend 32 <<< 2))) →
    (t ≠ 0#32 →
      exec i s = .next { s with gpr := s.gpr.set (31 : Gpr) (s.pc + 4#32), pc := t }) ∧
    (t = 0#32 → Raises i s .undefinedJumpTarget)

/-- The six branches on general registers (41_control_flow.md R271 to R276), with their encodings: to
npc + (sext(imm) << 2) when the condition holds, else to npc, or the fault UndefinedJumpTarget. -/
def Obligations.RegisterBranches : Prop :=
  ∀ (s : State) (rs rt : Gpr) (imm : BitVec 16) (i : Instr) (taken : Prop),
    ((i = .jeq rs rt imm ∧ (taken ↔ s.gpr[rs] = s.gpr[rt])) ∨
      (i = .jne rs rt imm ∧ (taken ↔ s.gpr[rs] ≠ s.gpr[rt])) ∨
      (i = .jlez rs imm ∧ (taken ↔ s.gpr[rs].toInt ≤ 0)) ∨
      (i = .jgtz rs imm ∧ (taken ↔ 0 < s.gpr[rs].toInt)) ∨
      (i = .jltz rs imm ∧ (taken ↔ s.gpr[rs].toInt < 0)) ∨
      (i = .jgez rs imm ∧ (taken ↔ 0 ≤ s.gpr[rs].toInt))) →
    ∀ t : Word, (taken → t = s.pc + 4#32 + (imm.signExtend 32 <<< 2)) →
      (¬ taken → t = s.pc + 4#32) →
      (t ≠ 0#32 → exec i s = .next { s with pc := t }) ∧
      (t = 0#32 → Raises i s .undefinedJumpTarget) ∧
      encode (.jeq rs rt imm) = 0x04#6 ++ reg rs ++ reg rt ++ imm ∧
      encode (.jne rs rt imm) = 0x05#6 ++ reg rs ++ reg rt ++ imm ∧
      encode (.jlez rs imm) = 0x06#6 ++ reg rs ++ 0#5 ++ imm ∧
      encode (.jgtz rs imm) = 0x07#6 ++ reg rs ++ 0#5 ++ imm ∧
      encode (.jltz rs imm) = 0x01#6 ++ reg rs ++ 0#5 ++ imm ∧
      encode (.jgez rs imm) = 0x01#6 ++ reg rs ++ 1#5 ++ imm

/-- bc1t and bc1f (41_control_flow.md R277, R278, the spec's decision D17). -/
def Obligations.ConditionBranches : Prop :=
  ∀ (s : State) (imm : BitVec 16) (b : Bool) (i : Instr),
    (i = .bc1t imm ∧ b = true) ∨ (i = .bc1f imm ∧ b = false) →
    (s.cc.written = false → Raises i s (.unwrittenState .cc)) ∧
    (s.cc.written = true → ∀ t : Word,
      (s.cc.val = b → t = s.pc + 4#32 + (imm.signExtend 32 <<< 2)) →
      (s.cc.val ≠ b → t = s.pc + 4#32) →
      (t ≠ 0#32 → exec i s = .next { s with pc := t }) ∧
      (t = 0#32 → Raises i s .undefinedJumpTarget))

/-- ijmphi, ldi and ldihi (42_compact.md R292, R294, R295, the spec's decisions D18 and D19): the base, the low 14
bits with the record of the target, and the upper 18 bits of the recorded target. -/
def Obligations.PendingRegisters : Prop :=
  ∀ (s : State) (rt : Gpr) (hi20 : BitVec 20) (lo14 : BitVec 14) (hi18 : BitVec 18), s.Advances →
    exec (.ijmphi hi20) s =
      .next { s with ijmpreg := ⟨hi20 ++ 0#12, true⟩, pc := s.pc + 4#32 } ∧
    exec (.ldi rt lo14) s =
      .next { s with
        gpr := s.gpr.set rt (s.gpr[rt].extractLsb' 14 18 ++ lo14), ldireg := ⟨rt, true⟩,
        pc := s.pc + 4#32 } ∧
    (s.ldireg.written = true →
      exec (.ldihi hi18) s =
        .next { s with
          gpr := s.gpr.set s.ldireg.val (hi18 ++ s.gpr[s.ldireg.val].extractLsb' 0 14),
          pc := s.pc + 4#32 })

/-- ijmp (42_compact.md R293, the spec's decision D18): to the word at (ijmpreg | imm12) + 4*x[rs], with its checks
in their order. -/
def Obligations.TableJump : Prop :=
  ∀ (s : State) (rs : Gpr) (imm : BitVec 12),
    let a : Word := (s.ijmpreg.val ||| imm.setWidth 32) + s.gpr[rs] * 4#32
    (s.ijmpreg.written = false → Raises (.ijmp rs imm) s (.unwrittenState .ijmpreg)) ∧
    (s.ijmpreg.written = true → a.toNat % 4 ≠ 0 → Raises (.ijmp rs imm) s (.misalignedAccess a)) ∧
    (s.ijmpreg.written = true → a.toNat % 4 = 0 → ¬ s.Admits a 4 →
      exec (.ijmp rs imm) s = .fault (.stuckAccess a)) ∧
    (s.ijmpreg.written = true → a.toNat % 4 = 0 → s.Admits a 4 →
      (s.wordOf a = 0#32 → Raises (.ijmp rs imm) s .undefinedJumpTarget) ∧
      (s.wordOf a ≠ 0#32 → exec (.ijmp rs imm) s = .next { s with pc := s.wordOf a }))

/-- The pair law (42_compact.md R296): after ldi with the low 14 bits of v, ldihi with the upper 18 bits gives v,
whatever came between, if it left the pending register and the target. -/
def Obligations.SplitLoadPair : Prop :=
  ∀ (s t u w : State) (rt : Gpr) (v : Word),
    exec (.ldi rt (v.extractLsb' 0 14)) s = .next t → t.status = .running →
    u.ldireg = t.ldireg → u.gpr[rt] = t.gpr[rt] →
    exec (.ldihi (v.extractLsb' 14 18)) u = .next w → w.status = .running →
    w.gpr[rt] = v ∧ w.ldireg.val = rt

/-! ## Trap and environment -/

/-- teq traps exactly when its operands are equal, and break always (43_trap_system.md R310, R311,
60_exceptions.md R482, R483), with their encodings. -/
def Obligations.TrapAndBreak : Prop :=
  ∀ (s : State) (rs rt : Gpr) (c : BitVec 10) (d : BitVec 20),
    (s.gpr[rs] = s.gpr[rt] → Raises (.teq rs rt c) s .trapEqual) ∧
    (s.gpr[rs] ≠ s.gpr[rt] → s.Advances →
      exec (.teq rs rt c) s = .next { s with pc := s.pc + 4#32 }) ∧
    Raises (.brk d) s .break ∧ Trap.trapEqual.code = 1 ∧ Trap.break.code = 2 ∧
    encode (.teq rs rt c) = 0#6 ++ reg rs ++ reg rt ++ c ++ 0x34#6 ∧
    encode (.brk d) = 0#6 ++ d ++ 0x0D#6

/-- A syscall completes by handing the state, unchanged, to the host (00_scope.md R27, 43_trap_system.md
R312). And the host's turn for a call it does not perform (60_exceptions.md R507, R509, the spec's
decision D42): a number outside the table, or the fstat number. The arguments move down, x[2] is -1,
x[7] is 1, and the block is to resume. That the three are steps is the model's reading (log 13), as is
that the table is asked first (log 18). -/
def Obligations.SyscallAndUnsupportedCall : Prop :=
  (∀ (s : State) (code : BitVec 20),
    exec (.syscall code) s = .next { s with control := .host (encode (.syscall code)) }) ∧
  ∀ (s : State) (word : Word), s.status = .running → s.control = .host word →
    (s.gpr[(4 : Gpr)] ∉ s.emb.supportedSyscalls ∨ s.gpr[(4 : Gpr)] = s.emb.fstatNr) →
    ∃ t : State, step s = .next t ∧ t = { s with gpr := t.gpr, control := .resume word } ∧
      t.gpr[(2 : Gpr)] = 0xFFFFFFFF#32 ∧ t.gpr[(7 : Gpr)] = 1#32 ∧
      t.gpr[(4 : Gpr)] = s.gpr[(5 : Gpr)] ∧ t.gpr[(5 : Gpr)] = s.gpr[(6 : Gpr)] ∧
      t.gpr[(6 : Gpr)] = s.gpr[(7 : Gpr)] ∧ t.gpr[(8 : Gpr)] = s.gpr[(9 : Gpr)] ∧
      ∀ r : Gpr, r ∉ ([2, 4, 5, 6, 7, 8] : List Gpr) → t.gpr[r] = s.gpr[r]

/-- The host's turn for a call it performs and answers (60_exceptions.md R507, R508, R513, the spec's
decision D42): the arguments move down, x[2] is the result, x[7] says whether it is negative, the bytes
the host writes hold what it writes, where the port admits them, and count as no stores of the run
(the model's choice, log 17), and the block is to resume. With no answer queued it is some answer
(the model's queue and free value, log 14). -/
def Obligations.SupportedCall : Prop :=
  ∀ (s : State) (word r : Word) (writes : List (Word × Byte)) (rest : List HostReply),
    s.status = .running → s.control = .host word →
    s.gpr[(4 : Gpr)] ∈ s.emb.supportedSyscalls → s.gpr[(4 : Gpr)] ≠ s.emb.fstatNr →
    s.gpr[(4 : Gpr)] ≠ s.emb.exitNr →
    (s.hostReplies = .returns r writes :: rest →
      ∃ t : State, step s = .next t ∧
        t = { s with gpr := t.gpr, mem := t.mem, hostReplies := rest, control := .resume word } ∧
        t.gpr[(2 : Gpr)] = r ∧ t.gpr[(7 : Gpr)] = (if r.toInt < 0 then 1#32 else 0#32) ∧
        t.gpr[(4 : Gpr)] = s.gpr[(5 : Gpr)] ∧ t.gpr[(5 : Gpr)] = s.gpr[(6 : Gpr)] ∧
        t.gpr[(6 : Gpr)] = s.gpr[(7 : Gpr)] ∧ t.gpr[(8 : Gpr)] = s.gpr[(9 : Gpr)] ∧
        (∀ q : Gpr, q ∉ ([2, 4, 5, 6, 7, 8] : List Gpr) → t.gpr[q] = s.gpr[q]) ∧
        HostWrote s t writes) ∧
    (s.hostReplies = [] →
      ∃ (reply : HostReply) (d : Nat),
        step s = mapNext (fun t => { t with draws := d }) (step { s with hostReplies := [reply] }))

/-- The two ways the host's turn ends the run: the exit call, with the old x[5] as the status, and a fatal
condition of the host, with the record of the syscall (60_exceptions.md R495, R507, R511, the spec's
decisions D37, D41 and D42). That the arguments stay moved down, that the exit call writes no byte
(log 18), and that the bytes the host wrote before its fatal condition stay (log 30, log 17) are the
model's. -/
def Obligations.CallEndsRun : Prop :=
  ∀ (s : State) (word : Word), s.status = .running → s.control = .host word →
    s.gpr[(4 : Gpr)] ∈ s.emb.supportedSyscalls → s.gpr[(4 : Gpr)] ≠ s.emb.fstatNr →
    ∀ (writes : List (Word × Byte)) (rest : List HostReply),
      (s.gpr[(4 : Gpr)] = s.emb.exitNr ∨ s.hostReplies = .fatal writes :: rest) →
      ∃ t : State, step s = .next t ∧
        t.gpr[(4 : Gpr)] = s.gpr[(5 : Gpr)] ∧ t.gpr[(5 : Gpr)] = s.gpr[(6 : Gpr)] ∧
        t.gpr[(6 : Gpr)] = s.gpr[(7 : Gpr)] ∧ t.gpr[(7 : Gpr)] = s.gpr[(8 : Gpr)] ∧
        t.gpr[(8 : Gpr)] = s.gpr[(9 : Gpr)] ∧
        (∀ q : Gpr, q ∉ ([4, 5, 6, 7, 8] : List Gpr) → t.gpr[q] = s.gpr[q]) ∧
        (s.gpr[(4 : Gpr)] = s.emb.exitNr → t.status = .exited s.gpr[(5 : Gpr)] ∧
          t = { s with gpr := t.gpr, status := t.status } ∧
          t.exitStatus = some s.gpr[(5 : Gpr)].toNat) ∧
        (s.gpr[(4 : Gpr)] ≠ s.emb.exitNr → t.status = .halted .hostFatal s.pc (some word) ∧
          t = { s with gpr := t.gpr, mem := t.mem, hostReplies := rest, status := t.status } ∧
          HostWrote s t writes ∧ ∃ n, n ≠ 0 ∧ t.exitStatus = some n)

/-! ## Floating point -/

/-- The single arithmetic instructions complete with the rounded result, or the pattern of `nanOf`, in slot fd and
nowhere else (44_fp_arith.md R330, R336, R338, R340, R342, R344, R352, R354). -/
def Obligations.SingleArithmetic : Prop :=
  ∀ (s : State) (fd fs ft fr : Fpr), s.Advances → s.HasS fs → s.HasS ft → s.HasS fr →
    let pc := s.pc + 4#32
    let a := s.patS fs
    let b := s.patS ft
    let c := s.patS fr
    let x := valueS a
    let y := valueS b
    let z := valueS c
    let op2 := fun (o : NanOp) (r : FpResult) => resultS o [.single a, .single b] r
    let op3 := fun (o : NanOp) (r : FpResult) => resultS o [.single c, .single a, .single b] r
    let F := Fmt.single
    exec (.addS fd fs ft) s = .next { s with fpr := slotsS s.fpr fd (op2 .addS (F.add x y)), pc := pc } ∧
    exec (.subS fd fs ft) s = .next { s with fpr := slotsS s.fpr fd (op2 .subS (F.sub x y)), pc := pc } ∧
    exec (.mulS fd fs ft) s = .next { s with fpr := slotsS s.fpr fd (op2 .mulS (F.mul x y)), pc := pc } ∧
    exec (.divS fd fs ft) s = .next { s with fpr := slotsS s.fpr fd (op2 .divS (F.div x y)), pc := pc } ∧
    exec (.sqrtS fd fs) s =
      .next { s with fpr := slotsS s.fpr fd (resultS .sqrtS [.single a] (F.sqrt x)), pc := pc } ∧
    exec (.maddS fd fr fs ft) s =
      .next { s with fpr := slotsS s.fpr fd (op3 .maddS (F.fma x y z)), pc := pc } ∧
    exec (.msubS fd fr fs ft) s =
      .next { s with fpr := slotsS s.fpr fd (op3 .msubS (F.fma x y z.negate)), pc := pc }

/-- The double arithmetic instructions complete with the rounded result, or the pattern of `nanOf`, in slots fd and
fd+1 and nowhere else (44_fp_arith.md R330, R337, R339, R341, R343, R345, R353, R355). -/
def Obligations.DoubleArithmetic : Prop :=
  ∀ (s : State) (fd fs ft fr : Fpr), s.Advances → fd ≠ 31 → fs ≠ 31 → ft ≠ 31 → fr ≠ 31 →
    s.HasD fs → s.HasD ft → s.HasD fr →
    let pc := s.pc + 4#32
    let a := s.patD fs
    let b := s.patD ft
    let c := s.patD fr
    let x := valueD a
    let y := valueD b
    let z := valueD c
    let op2 := fun (o : NanOp) (r : FpResult) => resultD o [.double a, .double b] r
    let op3 := fun (o : NanOp) (r : FpResult) => resultD o [.double c, .double a, .double b] r
    let F := Fmt.double
    exec (.addD fd fs ft) s = .next { s with fpr := slotsD s.fpr fd (op2 .addD (F.add x y)), pc := pc } ∧
    exec (.subD fd fs ft) s = .next { s with fpr := slotsD s.fpr fd (op2 .subD (F.sub x y)), pc := pc } ∧
    exec (.mulD fd fs ft) s = .next { s with fpr := slotsD s.fpr fd (op2 .mulD (F.mul x y)), pc := pc } ∧
    exec (.divD fd fs ft) s = .next { s with fpr := slotsD s.fpr fd (op2 .divD (F.div x y)), pc := pc } ∧
    exec (.sqrtD fd fs) s =
      .next { s with fpr := slotsD s.fpr fd (resultD .sqrtD [.double a] (F.sqrt x)), pc := pc } ∧
    exec (.maddD fd fr fs ft) s =
      .next { s with fpr := slotsD s.fpr fd (op3 .maddD (F.fma x y z)), pc := pc } ∧
    exec (.msubD fd fr fs ft) s =
      .next { s with fpr := slotsD s.fpr fd (op3 .msubD (F.fma x y z.negate)), pc := pc }

/-- abs, neg and mov are operations on bits, NaNs included (44_fp_arith.md R346 to R351, the spec's decision D28). -/
def Obligations.SignOperations : Prop :=
  ∀ (s : State) (fd fs : Fpr), s.Advances →
    let pc := s.pc + 4#32
    (s.HasS fs →
      exec (.absS fd fs) s =
        .next { s with fpr := slotsS s.fpr fd (s.patS fs &&& 0x7FFFFFFF#32), pc := pc } ∧
      exec (.negS fd fs) s =
        .next { s with fpr := slotsS s.fpr fd (s.patS fs ^^^ 0x80000000#32), pc := pc } ∧
      exec (.movS fd fs) s = .next { s with fpr := slotsS s.fpr fd (s.patS fs), pc := pc }) ∧
    (fd ≠ 31 → fs ≠ 31 → s.HasD fs →
      exec (.absD fd fs) s =
        .next { s with
          fpr := slotsD s.fpr fd ((s.patS (fs + 1) &&& 0x7FFFFFFF#32) ++ s.patS fs), pc := pc } ∧
      exec (.negD fd fs) s =
        .next { s with
          fpr := slotsD s.fpr fd ((s.patS (fs + 1) ^^^ 0x80000000#32) ++ s.patS fs), pc := pc } ∧
      exec (.movD fd fs) s = .next { s with fpr := slotsD s.fpr fd (s.patD fs), pc := pc })

/-- Rounding is to nearest, ties to even, over the whole range with subnormals and overflow (44_fp_arith.md R331,
R333, R334, the spec's decisions D22 and D25). -/
def Obligations.RoundingIsNearestEven : Prop :=
  ∀ (f : Fmt) (num den : Nat), f = .single ∨ f = .double → 0 < den →
    f.Nearest ((num : ℝ) / den / 2 ^ f.unitLog) (f.round num den)

/-- Sums, differences, products and fused product-sums of finite values with a value other than 0 are the exact value
rounded once (44_fp_arith.md R331, R336 to R341, R352 to R355, the spec's decisions D22 and D29). -/
def Obligations.SumsAndProductsRounded : Prop :=
  ∀ (f : Fmt) (n₁ n₂ n₃ : Bool) (m₁ m₂ m₃ : Nat), f = .single ∨ f = .double →
    let a := FpVal.fin n₁ m₁
    let b := FpVal.fin n₂ m₂
    let c := FpVal.fin n₃ m₃
    (f.rat a + f.rat b ≠ 0 → ∃ r, f.add a b = some r ∧ f.RoundsTo ((f.rat a + f.rat b : ℚ) : ℝ) r) ∧
    (f.rat a - f.rat b ≠ 0 → ∃ r, f.sub a b = some r ∧ f.RoundsTo ((f.rat a - f.rat b : ℚ) : ℝ) r) ∧
    (f.rat a * f.rat b ≠ 0 → ∃ r, f.mul a b = some r ∧ f.RoundsTo ((f.rat a * f.rat b : ℚ) : ℝ) r) ∧
    (f.rat a * f.rat b + f.rat c ≠ 0 →
      ∃ r, f.fma a b c = some r ∧ f.RoundsTo ((f.rat a * f.rat b + f.rat c : ℚ) : ℝ) r)

/-- Quotients and square roots of finite values are the exact value rounded once, the root a real number
(44_fp_arith.md R331, R342 to R345, the spec's decision D22). -/
def Obligations.QuotientsAndRootsRounded : Prop :=
  ∀ (f : Fmt) (n₁ n₂ : Bool) (m₁ m₂ : Nat), f = .single ∨ f = .double → m₁ ≠ 0 → m₂ ≠ 0 →
    let a := FpVal.fin n₁ m₁
    let b := FpVal.fin n₂ m₂
    (∃ r, f.div a b = some r ∧ f.RoundsTo ((f.rat a / f.rat b : ℚ) : ℝ) r) ∧
    ∃ r, f.sqrt (.fin false m₁) = some r ∧
      f.RoundsTo (Real.sqrt (f.rat (.fin false m₁) : ℝ)) r

/-- The results that are NaNs are those IEEE 754 names, and their pattern is some NaN of the format, whichever
`nanOf` gives; division by zero, operations on infinities, and exact zeros have the results and signs
IEEE 754 gives them (44_fp_arith.md R332, R334, R335, which the spec takes from general knowledge and
decision D25; the sign of an exact zero of a fused product-sum is the model's reading, log 27, and so is
that (-0) - (+0) is -0, log 31). -/
def Obligations.SpecialValues : Prop :=
  (∀ (o : NanOp) (l : List FpPattern), valueS (resultS o l none) = .nan ∧ valueD (resultD o l none) = .nan) ∧
  (∀ w : Word, valueS w = .nan ↔
    w.extractLsb' 23 8 = 0xFF#8 ∧ w.extractLsb' 0 23 ≠ 0#23) ∧
  (∀ d : DWord, valueD d = .nan ↔
    d.extractLsb' 52 11 = 0x7FF#11 ∧ d.extractLsb' 0 52 ≠ 0#52) ∧
  ∀ (f : Fmt) (a b c : FpVal) (n n' n'' : Bool) (m m' m'' : Nat),
    (f.add a b = none ↔ a = .nan ∨ b = .nan ∨ ∃ g, a = .inf g ∧ b = .inf (!g)) ∧
    (f.sub a b = none ↔ a = .nan ∨ b = .nan ∨ ∃ g, a = .inf g ∧ b = .inf g) ∧
    (f.mul a b = none ↔ a = .nan ∨ b = .nan ∨
      ∃ g h, (a = .inf g ∧ b = .fin h 0) ∨ (a = .fin h 0 ∧ b = .inf g)) ∧
    (f.div a b = none ↔ a = .nan ∨ b = .nan ∨
      ∃ g h, (a = .inf g ∧ b = .inf h) ∨ (a = .fin g 0 ∧ b = .fin h 0)) ∧
    (f.sqrt a = none ↔ a = .nan ∨ a = .inf true ∨ ∃ k, k ≠ 0 ∧ a = .fin true k) ∧
    (f.fma a b c = none ↔ a = .nan ∨ b = .nan ∨ c = .nan ∨
      (∃ g h, (a = .inf g ∧ b = .fin h 0) ∨ (a = .fin h 0 ∧ b = .inf g)) ∨
      ∃ g h, c = .inf (!(g != h)) ∧
        ((a = .inf g ∧ b = .inf h) ∨ (∃ k, k ≠ 0 ∧ a = .inf g ∧ b = .fin h k) ∨
          ∃ k, k ≠ 0 ∧ a = .fin g k ∧ b = .inf h)) ∧
    (m ≠ 0 → f.div (.fin n m) (.fin n' 0) = some (f.pattern (n != n') f.infMag)) ∧
    f.mul (.fin n 0) (.fin n' m) = some (f.pattern (n != n') 0) ∧
    (m ≠ 0 → f.div (.fin n 0) (.fin n' m) = some (f.pattern (n != n') 0)) ∧
    f.add (.fin n 0) (.fin n' 0) = some (f.pattern (n && n') 0) ∧
    f.mul (.fin n m) (.fin n' 0) = some (f.pattern (n != n') 0) ∧
    f.add (.fin n m) (.fin (!n) m) = some (f.pattern false 0) ∧
    f.sub (.fin n m) (.fin n m) = some (f.pattern false 0) ∧
    f.sub (.fin n 0) (.fin n' 0) = some (f.pattern (n && !n') 0) ∧
    f.sqrt (.fin n 0) = some (f.pattern n 0) ∧
    (f.rat (.fin n m) * f.rat (.fin n' m') + f.rat (.fin n'' m'') = 0 →
      f.fma (.fin n m) (.fin n' m') (.fin n'' m'') = some (f.pattern ((n != n') && n'') 0)) ∧
    f.add (.inf n) (.fin n' m) = some (f.pattern n f.infMag) ∧
    f.add (.fin n' m) (.inf n) = some (f.pattern n f.infMag) ∧
    f.add (.inf n) (.inf n) = some (f.pattern n f.infMag) ∧
    f.sub (.inf n) (.fin n' m) = some (f.pattern n f.infMag) ∧
    f.sub (.fin n' m) (.inf n) = some (f.pattern (!n) f.infMag) ∧
    f.sub (.inf n) (.inf !n) = some (f.pattern n f.infMag) ∧
    f.mul (.inf n) (.inf n') = some (f.pattern (n != n') f.infMag) ∧
    (m ≠ 0 → f.mul (.inf n) (.fin n' m) = some (f.pattern (n != n') f.infMag) ∧
      f.mul (.fin n m) (.inf n') = some (f.pattern (n != n') f.infMag)) ∧
    f.div (.inf n) (.fin n' m) = some (f.pattern (n != n') f.infMag) ∧
    f.div (.fin n m) (.inf n') = some (f.pattern (n != n') 0) ∧
    f.sqrt (.inf false) = some (f.pattern false f.infMag) ∧
    f.fma (.fin n m) (.fin n' m') (.inf n'') = some (f.pattern n'' f.infMag) ∧
    ((∃ k, c = .fin n'' k) ∨ c = .inf (n != n') →
      f.fma (.inf n) (.inf n') c = some (f.pattern (n != n') f.infMag) ∧
      (m ≠ 0 → f.fma (.inf n) (.fin n' m) c = some (f.pattern (n != n') f.infMag) ∧
        f.fma (.fin n m) (.inf n') c = some (f.pattern (n != n') f.infMag)))

/-- The comparisons write their predicate to cc, whatever cc held, and nothing else
(45_fp_compare_convert.md R380 to R394, the spec's decision D27). -/
def Obligations.Comparisons : Prop :=
  ∀ (s : State) (fs ft : Fpr), s.Advances →
    let done := fun (b : Bool) => Host.Outcome.next { s with cc := ⟨b, true⟩, pc := s.pc + 4#32 }
    (s.HasS fs → s.HasS ft →
      let a := valueS (s.patS fs)
      let b := valueS (s.patS ft)
      exec (.cEqS fs ft) s = done (a.eq b) ∧ exec (.cOleS fs ft) s = done (a.le b) ∧
      exec (.cOltS fs ft) s = done (a.lt b) ∧ exec (.cUeqS fs ft) s = done (a.eq b) ∧
      exec (.cUleS fs ft) s = done (a.le b) ∧ exec (.cUltS fs ft) s = done (a.lt b) ∧
      exec (.cUnS fs ft) s = done (a.unordered b)) ∧
    (fs ≠ 31 → ft ≠ 31 → s.HasD fs → s.HasD ft →
      let a := valueD (s.patD fs)
      let b := valueD (s.patD ft)
      exec (.cEqD fs ft) s = done (a.eq b) ∧ exec (.cOleD fs ft) s = done (a.le b) ∧
      exec (.cOltD fs ft) s = done (a.lt b) ∧ exec (.cUeqD fs ft) s = done (a.eq b) ∧
      exec (.cUleD fs ft) s = done (a.le b) ∧ exec (.cUltD fs ft) s = done (a.lt b) ∧
      exec (.cUnD fs ft) s = done (a.unordered b))

/-- The predicates are numeric comparison: false with a NaN, -0 equal to +0, the infinities at the ends
(45_fp_compare_convert.md R380, which the spec takes from general knowledge and decision D27). -/
def Obligations.ComparisonPredicates : Prop :=
  (∀ a : FpVal, FpVal.nan.le a = false ∧ a.le .nan = false ∧ FpVal.nan.eq a = false ∧
    a.eq .nan = false ∧ FpVal.nan.lt a = false ∧ a.lt .nan = false) ∧
  (∀ a b : FpVal, a.unordered b = true ↔ a = .nan ∨ b = .nan) ∧
  (∀ (f : Fmt) (n n' : Bool) (m m' : Nat),
    let a := FpVal.fin n m
    let b := FpVal.fin n' m'
    (a.eq b = true ↔ f.rat a = f.rat b) ∧ (a.le b = true ↔ f.rat a ≤ f.rat b) ∧
      (a.lt b = true ↔ f.rat a < f.rat b)) ∧
  ∀ (n : Bool) (m : Nat),
    (FpVal.inf true).lt (.fin n m) = true ∧ (FpVal.fin n m).lt (.inf false) = true ∧
    (FpVal.inf true).lt (.inf false) = true ∧ (FpVal.fin n m).le (.inf true) = false ∧
    (FpVal.inf false).le (.fin n m) = false ∧ ∀ g : Bool, (FpVal.inf g).eq (.inf g) = true ∧
      (FpVal.inf g).lt (.inf g) = false

/-- The conditional moves of singles and doubles: the guard, the copy of one slot or two, and the source read only when
the move is taken (45_fp_compare_convert.md R395 to R402, the spec's decisions D16 and D20). -/
def Obligations.SlotConditionalMoves : Prop :=
  ∀ (s : State) (fd fs : Fpr) (rt : Gpr) (single double : Instr) (taken : Prop),
    (single = .movzS fd fs rt ∧ double = .movzD fd fs rt ∧ (taken ↔ s.gpr[rt] = 0#32)) ∨
      (single = .movnS fd fs rt ∧ double = .movnD fd fs rt ∧ (taken ↔ s.gpr[rt] ≠ 0#32)) ∨
      (single = .movtS fd fs ∧ double = .movtD fd fs ∧ s.cc.written = true ∧
        (taken ↔ s.cc.val = true)) ∨
      (single = .movfS fd fs ∧ double = .movfD fd fs ∧ s.cc.written = true ∧
        (taken ↔ s.cc.val = false)) →
    (s.Advances → ¬ taken → exec single s = .next { s with pc := s.pc + 4#32 }) ∧
    (s.Advances → taken → s.HasS fs →
      exec single s = .next { s with fpr := slotsS s.fpr fd (s.patS fs), pc := s.pc + 4#32 }) ∧
    (taken → ¬ s.HasS fs → Raises single s (.unwrittenState (.fpr fs))) ∧
    (fd ≠ 31 → fs ≠ 31 →
      (s.Advances → ¬ taken → exec double s = .next { s with pc := s.pc + 4#32 }) ∧
      (s.Advances → taken → s.HasD fs →
        exec double s = .next { s with fpr := slotsD s.fpr fd (s.patD fs), pc := s.pc + 4#32 }) ∧
      (taken → ¬ s.HasD fs → ∃ j, (j = fs ∨ j = fs + 1) ∧ Raises double s (.unwrittenState (.fpr j))))

/-- The conversions complete: to a float with the rounded value or the pattern of `nanOf`, to a word with the rounded
integer or `cvtWInvalid`, in the slots of fd and nowhere else (45_fp_compare_convert.md R403 to R417;
`CVT_W_MODE` is truncation, decision D23; the mode of round.w can be selected, decision D30). -/
def Obligations.Conversions : Prop :=
  ∀ (s : State) (fd fs : Fpr), s.Advances →
    let one := fun (b : Word) =>
      Host.Outcome.next { s with fpr := slotsS s.fpr fd b, pc := s.pc + 4#32 }
    let two := fun (b : DWord) =>
      Host.Outcome.next { s with fpr := slotsD s.fpr fd b, pc := s.pc + 4#32 }
    (s.HasS fs →
      let a := s.patS fs
      let w := fun (o : ToWordOp) (m : WordRounding) =>
        resultW o (.single a) (Fmt.single.toWord m (valueS a))
      (fd ≠ 31 → exec (.cvtDS fd fs) s =
          two (resultD .cvtDS [.single a] (Fmt.single.convert .double (valueS a)))) ∧
      exec (.cvtSW fd fs) s = one (BitVec.ofNat 32 (Fmt.single.ofInt a.toInt)) ∧
      (fd ≠ 31 → exec (.cvtDW fd fs) s = two (BitVec.ofNat 64 (Fmt.double.ofInt a.toInt))) ∧
      exec (.cvtWS fd fs) s = one (w .cvtWS .truncate) ∧
      (s.emb.roundModeSettable = true → exec (.roundWS fd fs) s = one (w .roundWS .nearestEven)) ∧
      exec (.ceilWS fd fs) s = one (w .ceilWS .ceiling) ∧
      exec (.floorWS fd fs) s = one (w .floorWS .floor) ∧
      exec (.truncWS fd fs) s = one (w .truncWS .truncate)) ∧
    (fs ≠ 31 → s.HasD fs →
      let a := s.patD fs
      let w := fun (o : ToWordOp) (m : WordRounding) =>
        resultW o (.double a) (Fmt.double.toWord m (valueD a))
      exec (.cvtSD fd fs) s =
        one (resultS .cvtSD [.double a] (Fmt.double.convert .single (valueD a))) ∧
      exec (.cvtWD fd fs) s = one (w .cvtWD .truncate) ∧
      (s.emb.roundModeSettable = true → exec (.roundWD fd fs) s = one (w .roundWD .nearestEven)) ∧
      exec (.ceilWD fd fs) s = one (w .ceilWD .ceiling) ∧
      exec (.floorWD fd fs) s = one (w .floorWD .floor) ∧
      exec (.truncWD fd fs) s = one (w .truncWD .truncate))

/-- What the conversions give (45_fp_compare_convert.md R403 to R417, the spec's decisions D22 to D25): from one
format to the other a NaN gives no pattern but that of `nanOf`, infinities and zeros keep their sign,
widening is exact,
narrowing and the conversion of a word to a single are to nearest, ties to even; a word is the
integer the named function gives, in range, and `cvtWInvalid` stands for a NaN, an infinity or an
integer out of range. -/
def Obligations.ConversionValues : Prop :=
  (∀ (a : Word) (n : Bool) (m : Nat), valueS a = .fin n m →
    ∃ r, Fmt.single.convert .double (valueS a) = some r ∧
      Fmt.double.rat (valueD (BitVec.ofNat 64 r)) = Fmt.single.rat (.fin n m)) ∧
  (∀ (n : Bool) (m : Nat), m ≠ 0 → ∃ r, Fmt.double.convert .single (.fin n m) = some r ∧
    Fmt.single.RoundsTo ((Fmt.double.rat (.fin n m) : ℚ) : ℝ) r) ∧
  (∀ a : Word, Fmt.single.RoundsTo (a.toInt : ℝ) (Fmt.single.ofInt a.toInt)) ∧
  (∀ a : Word, Fmt.double.rat (valueD (BitVec.ofNat 64 (Fmt.double.ofInt a.toInt))) = a.toInt) ∧
  (∀ (f g : Fmt) (n : Bool), f.convert g .nan = none ∧
    f.convert g (.inf n) = some (g.pattern n g.infMag) ∧ f.convert g (.fin n 0) = some (g.pattern n 0)) ∧
  (∀ (f : Fmt) (m : WordRounding), f.toWord m .nan = none ∧ ∀ g, f.toWord m (.inf g) = none) ∧
  ∀ (f : Fmt) (mode : WordRounding) (n : Bool) (m : Nat) (z : Int),
    let x := f.rat (.fin n m)
    (mode = .truncate → z = if 0 ≤ x then ⌊x⌋ else ⌈x⌉) → (mode = .floor → z = ⌊x⌋) →
    (mode = .ceiling → z = ⌈x⌉) →
    (mode = .nearestEven → |(z : ℚ) - x| ≤ 1 / 2 ∧ (|(z : ℚ) - x| = 1 / 2 → z % 2 = 0)) →
    (-2 ^ 31 ≤ z ∧ z ≤ 2 ^ 31 - 1 → f.toWord mode (.fin n m) = some (BitVec.ofInt 32 z)) ∧
    (z < -2 ^ 31 ∨ 2 ^ 31 - 1 < z → f.toWord mode (.fin n m) = none)

/-- mfc1 and mtc1 copy 32 bits exactly (45_fp_compare_convert.md R418, R419), with their encodings; mfc1 of an unwritten
slot raises UnwrittenState. -/
def Obligations.RawTransfers : Prop :=
  ∀ (s : State) (rt : Gpr) (fs : Fpr),
    (s.Advances → s.HasS fs →
      exec (.mfc1 rt fs) s = .next { s with gpr := s.gpr.set rt (s.patS fs), pc := s.pc + 4#32 }) ∧
    (¬ s.HasS fs → Raises (.mfc1 rt fs) s (.unwrittenState (.fpr fs))) ∧
    (s.Advances →
      exec (.mtc1 rt fs) s =
        .next { s with fpr := s.fpr.set fs ⟨s.gpr[rt], true⟩, pc := s.pc + 4#32 }) ∧
    encode (.mfc1 rt fs) = 0x11#6 ++ 0x00#5 ++ reg rt ++ reg fs ++ 0#5 ++ 0#6 ∧
    encode (.mtc1 rt fs) = 0x11#6 ++ 0x04#5 ++ reg rt ++ reg fs ++ 0#5 ++ 0#6

/-- mfhc1, mflc1, mthc1, mtlc1 (45_fp_compare_convert.md R420 to R423, the spec's decision D21): the high half of a double
is slot fs+1, the low half slot fs, and the other half stays. And the overlay law (R424): a double written at fs
reads back bit for bit, and a single written to slot fs+1 afterwards replaces its high half and
leaves its low half. -/
def Obligations.HalvesAndOverlay : Prop :=
  ∀ (s : State) (rt : Gpr) (fs : Fpr) (v : DWord) (w : Word),
    (fs ≠ 31 → (s.writeD fs v).readD fs = .ok v ∧
      ((s.writeD fs v).writeS (fs + 1) w).readD fs = .ok (w ++ v.extractLsb' 0 32) ∧
      ((s.writeD fs v).writeS (fs + 1) w).readS fs = .ok (v.extractLsb' 0 32) ∧
      ∀ j : Fpr, j ≠ fs → j ≠ fs + 1 → (s.writeD fs v).fpr[j] = s.fpr[j]) ∧
    (s.Advances →
    (fs ≠ 31 → s.HasS (fs + 1) →
      exec (.mfhc1 rt fs) s =
        .next { s with gpr := s.gpr.set rt (s.patS (fs + 1)), pc := s.pc + 4#32 }) ∧
    (s.HasS fs →
      exec (.mflc1 rt fs) s = .next { s with gpr := s.gpr.set rt (s.patS fs), pc := s.pc + 4#32 }) ∧
    (fs ≠ 31 →
      exec (.mthc1 rt fs) s =
        .next { s with fpr := s.fpr.set (fs + 1 : Fpr) ⟨s.gpr[rt], true⟩, pc := s.pc + 4#32 }) ∧
    exec (.mtlc1 rt fs) s =
      .next { s with fpr := s.fpr.set fs ⟨s.gpr[rt], true⟩, pc := s.pc + 4#32 })

/-- The checks of an instruction's operands come in the order of 60_exceptions.md R497 (the spec's decision D39): an
instruction that names a double at index 31 raises DoubleRegisterOutOfRange (R490, D21); else
round.w where the mode cannot be selected raises RoundingModeUnavailable (R492, D30); else one that
reads an unwritten cc, ldireg, ijmpreg or slot raises UnwrittenState with the name of one that it
reads (R489, D20). -/
def Obligations.OperandChecks : Prop :=
  ∀ (i : Instr) (s : State),
    ((31 : Fpr) ∈ i.doubleIndices → Raises i s (.doubleRegisterOutOfRange 31)) ∧
    ((31 : Fpr) ∉ i.doubleIndices → s.emb.roundModeSettable = false →
      (∃ fd fs, i = .roundWS fd fs ∨ i = .roundWD fd fs) → Raises i s .roundingModeUnavailable) ∧
    ((31 : Fpr) ∉ i.doubleIndices →
      (s.emb.roundModeSettable = true ∨ ∀ fd fs, i ≠ .roundWS fd fs ∧ i ≠ .roundWD fd fs) →
      (∃ m ∈ i.markedReads, s.isWritten m = false) →
      ∃ m ∈ i.markedReads, s.isWritten m = false ∧ Raises i s (.unwrittenState m))

/-! ## Loads and stores -/

/-- ldb and ldbu (46_loadstore.md R442, R443), with their encodings: the byte at x[rs] + sext(imm), extended
(R440, the spec's decision D31); stuck if the port does not admit it, which is a named fault of the
model (log 7). -/
def Obligations.ByteLoads : Prop :=
  ∀ (s : State) (rt rs : Gpr) (imm : BitVec 16),
    let ea := s.gpr[rs] + imm.signExtend 32
    (s.Advances → s.Admits ea 1 →
      exec (.ldb rt imm rs) s =
        .next { s with gpr := s.gpr.set rt ((s.byteAt ea).signExtend 32), pc := s.pc + 4#32 } ∧
      exec (.ldbu rt imm rs) s =
        .next { s with gpr := s.gpr.set rt (0#24 ++ s.byteAt ea), pc := s.pc + 4#32 }) ∧
    (¬ s.Admits ea 1 → exec (.ldb rt imm rs) s = .fault (.stuckAccess ea) ∧
      exec (.ldbu rt imm rs) s = .fault (.stuckAccess ea)) ∧
    encode (.ldb rt imm rs) = 0x20#6 ++ reg rs ++ reg rt ++ imm ∧
    encode (.ldbu rt imm rs) = 0x24#6 ++ reg rs ++ reg rt ++ imm

/-- ldh, ldhu, ldw, ll, lwc1, ldc1 at an aligned admitted address (46_loadstore.md R440, R444 to R446, R454, R456, R457,
the spec's decisions D31, D32 and D36; the byte order is 20_memory.md R103). -/
def Obligations.AlignedLoads : Prop :=
  ∀ (s : State) (rt rs : Gpr) (ft : Fpr) (imm : BitVec 16), s.Advances →
    let ea := s.gpr[rs] + imm.signExtend 32
    let half := s.byteAt ea ++ s.byteAt (ea + 1#32)
    (ea.toNat % 2 = 0 → s.Admits ea 2 →
      exec (.ldh rt imm rs) s =
        .next { s with gpr := s.gpr.set rt (half.signExtend 32), pc := s.pc + 4#32 } ∧
      exec (.ldhu rt imm rs) s =
        .next { s with gpr := s.gpr.set rt (0#16 ++ half), pc := s.pc + 4#32 }) ∧
    (ea.toNat % 4 = 0 → s.Admits ea 4 →
      exec (.ldw rt imm rs) s =
        .next { s with gpr := s.gpr.set rt (s.wordOf ea), pc := s.pc + 4#32 } ∧
      exec (.ll rt imm rs) s =
        .next { s with gpr := s.gpr.set rt (s.wordOf ea), pc := s.pc + 4#32 } ∧
      exec (.lwc1 ft imm rs) s =
        .next { s with fpr := slotsS s.fpr ft (s.wordOf ea), pc := s.pc + 4#32 }) ∧
    (ft ≠ 31 → ea.toNat % 4 = 0 → s.Admits ea 8 →
      exec (.ldc1 ft imm rs) s =
        .next { s with
          fpr := slotsD s.fpr ft (s.wordOf ea ++ s.wordOf (ea + 4#32)), pc := s.pc + 4#32 })

/-- ldwl, ldwr, stwl, stwr (46_loadstore.md R447, R448, R452, R453, the spec's decision D50): the aligned word, shifted,
over the bits of the register that it leaves, and the shifted register over the bits of memory that
it leaves. That all four bytes of a store count as stored is the model's reading (log 21). -/
def Obligations.UnalignedAccess : Prop :=
  ∀ (s : State) (rt rs : Gpr) (imm : BitVec 16), s.Advances →
    let ea := s.gpr[rs] + imm.signExtend 32
    let a := ea &&& 0xFFFFFFFC#32
    let l := ea.toNat % 4 * 8
    let r := (3 - ea.toNat % 4) * 8
    let m := s.wordOf a
    let v := s.gpr[rt]
    s.Admits a 4 →
      exec (.ldwl rt imm rs) s =
        .next { s with
          gpr := s.gpr.set rt ((m <<< l) ||| (v &&& BitVec.ofNat 32 (2 ^ l - 1))), pc := s.pc + 4#32 } ∧
      exec (.ldwr rt imm rs) s =
        .next { s with
          gpr := s.gpr.set rt ((m >>> r) ||| (v &&& ~~~(0xFFFFFFFF#32 >>> r))), pc := s.pc + 4#32 } ∧
      (s.mem.wf → ∃ t : State, exec (.stwl rt imm rs) s = .next t ∧
        StoresBytes s t a (wordBytes ((v >>> l) ||| (m &&& ~~~(0xFFFFFFFF#32 >>> l)))) ∧
        t = { s with mem := t.mem, stored := t.stored, pc := s.pc + 4#32 }) ∧
      (s.mem.wf → ∃ t : State, exec (.stwr rt imm rs) s = .next t ∧
        StoresBytes s t a (wordBytes ((v <<< r) ||| (m &&& BitVec.ofNat 32 (2 ^ r - 1)))) ∧
        t = { s with mem := t.mem, stored := t.stored, pc := s.pc + 4#32 })

/-- stb, sth, stw, swc1, sdc1 and sc at an aligned admitted address (46_loadstore.md R440, R449 to R451, R455, R458, R459,
the spec's decisions D31, D32 and D36): the bytes stored, most significant first, every other byte as it
was, and for sc the 1 in x[rt]. -/
def Obligations.Stores : Prop :=
  ∀ (s : State) (rt rs : Gpr) (ft : Fpr) (imm : BitVec 16), s.Advances → s.mem.wf →
    let ea := s.gpr[rs] + imm.signExtend 32
    let v := s.gpr[rt]
    (s.Admits ea 1 → ∃ t : State, exec (.stb rt imm rs) s = .next t ∧
      StoresBytes s t ea [v.extractLsb' 0 8] ∧
      t = { s with mem := t.mem, stored := t.stored, pc := s.pc + 4#32 }) ∧
    (ea.toNat % 2 = 0 → s.Admits ea 2 → ∃ t : State, exec (.sth rt imm rs) s = .next t ∧
      StoresBytes s t ea [v.extractLsb' 8 8, v.extractLsb' 0 8] ∧
      t = { s with mem := t.mem, stored := t.stored, pc := s.pc + 4#32 }) ∧
    (ea.toNat % 4 = 0 → s.Admits ea 4 →
      (∃ t : State, exec (.stw rt imm rs) s = .next t ∧ StoresBytes s t ea (wordBytes v) ∧
        t = { s with mem := t.mem, stored := t.stored, pc := s.pc + 4#32 }) ∧
      (∃ t : State, exec (.sc rt imm rs) s = .next t ∧ StoresBytes s t ea (wordBytes v) ∧
        t = { s with
          gpr := s.gpr.set rt 1#32, mem := t.mem, stored := t.stored, pc := s.pc + 4#32 }) ∧
      (s.HasS ft → ∃ t : State, exec (.swc1 ft imm rs) s = .next t ∧
        StoresBytes s t ea (wordBytes (s.patS ft)) ∧
        t = { s with mem := t.mem, stored := t.stored, pc := s.pc + 4#32 })) ∧
    (ft ≠ 31 → s.HasD ft → ea.toNat % 4 = 0 → s.Admits ea 8 →
      ∃ t : State, exec (.sdc1 ft imm rs) s = .next t ∧
        StoresBytes s t ea (wordBytes (s.patS (ft + 1)) ++ wordBytes (s.patS ft)) ∧
        t = { s with mem := t.mem, stored := t.stored, pc := s.pc + 4#32 })

/-- A data access that is misaligned raises MisalignedAccess with its address, and an aligned one that the port does not
admit has no next state; index and unwritten-slot checks come before (46_loadstore.md R441, 60_exceptions.md
R487, R496, R497, the spec's decisions D32, D33 and D39). -/
def Obligations.DataAccessChecks : Prop :=
  ∀ (i : Instr) (s : State), (31 : Fpr) ∉ i.doubleIndices → (∀ m ∈ i.markedReads, s.isWritten m = true) →
    (∀ (a : Word) (n : Nat), i.alignedAccess s = some (a, n) → a.toNat % n ≠ 0 →
      Raises i s (.misalignedAccess a)) ∧
    ((∀ (a : Word) (n : Nat), i.alignedAccess s = some (a, n) → a.toNat % n = 0) →
      ¬ s.Admits (i.accessRun s).1 (i.accessRun s).2 → ∃ a : Word, exec i s = .fault (.stuckAccess a))

/-- The laws of the unaligned pair (46_loadstore.md R460, R461, which the spec derives from R447, R448, R452 and R453).
What stwl stored, ldwl at the same address loads back over a register with the right low bits, and
stwr and ldwr mirror them; ldwl at ea then ldwr at ea+3 load the four bytes from ea up, and stwl at ea
then stwr at ea+3 store the register to those four bytes and leave every other byte. -/
def Obligations.UnalignedPairLaws : Prop :=
  ∀ (s t u v : State) (rt rs rd rb : Gpr) (imm off : BitVec 16), s.mem.wf →
    t.status = .running → v.status = .running →
    let ea := s.gpr[rs] + imm.signExtend 32
    let w := s.gpr[rt]
    let l := ea.toNat % 4 * 8
    let r := (3 - ea.toNat % 4) * 8
    (u.mem = t.mem → u.gpr[rb] + off.signExtend 32 = ea → exec (.stwl rt imm rs) s = .next t →
      exec (.ldwl rd off rb) u = .next v → (∀ k < l, u.gpr[rd].getLsbD k = w.getLsbD k) →
      v.gpr[rd] = w) ∧
    (u.mem = t.mem → u.gpr[rb] + off.signExtend 32 = ea → exec (.stwr rt imm rs) s = .next t →
      exec (.ldwr rd off rb) u = .next v →
      (∀ k < 32, 32 - r ≤ k → u.gpr[rd].getLsbD k = w.getLsbD k) → v.gpr[rd] = w) ∧
    (t.gpr[rb] + off.signExtend 32 = ea + 3#32 → exec (.ldwl rt imm rs) s = .next t →
      exec (.ldwr rt off rb) t = .next v → v.gpr[rt] = s.wordOf ea) ∧
    (t.gpr[rb] + off.signExtend 32 = ea + 3#32 → exec (.stwl rt imm rs) s = .next t →
      exec (.stwr rt off rb) t = .next v →
      v.wordOf ea = w ∧
      ∀ a : Word, (∀ k < 4, a ≠ ea + BitVec.ofNat 32 k) → v.byteAt a = s.byteAt a)

/-! ## The host -/

/-- The inspection contract (10_state.md R59, R60, the spec's decision D43): the index space of reads and writes, and the
indices that read as zero and ignore writes. That a write of hi or lo marks it is the model's reading
(log 28), and that a pending host call or the end of the run changes nothing in it its choice (log 32). -/
def Obligations.Inspection : Prop :=
  ∀ (s : State) (v : Word),
    (∀ r : Gpr, s.inspectRead r = s.gpr[r] ∧ s.inspectWrite r v = { s with gpr := s.gpr.set r v }) ∧
    (s.lo.written = true → s.inspectRead 33 = s.lo.val) ∧
    (s.hi.written = true → s.inspectRead 34 = s.hi.val) ∧ s.inspectRead 37 = s.pc ∧
    s.inspectWrite 33 v = { s with lo := ⟨v, true⟩ } ∧ (s.inspectWrite 33 v).inspectRead 33 = v ∧
    s.inspectWrite 34 v = { s with hi := ⟨v, true⟩ } ∧ (s.inspectWrite 34 v).inspectRead 34 = v ∧
    s.inspectWrite 37 v = { s with pc := v } ∧
    ∀ k : Nat, 32 ≤ k → k ≠ 33 → k ≠ 34 → k ≠ 37 → s.inspectRead k = 0#32 ∧ s.inspectWrite k v = s

/-- The process bootstrap (70_reset_and_hazards.md R534 to R536, R538, the spec's decision D48): the string table, the
stack image, three registers, every other register and byte as before, and HostFatal for more than 512
bytes of strings. What the table holds after the strings is an argument (log 24). That HostFatal records no
word, and that memory and the registers are then as before, is the model's choice (log 24): R538 gives
the run status only. The bytes are written whether or not the port admits them, the model's choice
(log 33), and a layout is checked before the strings are measured (log 24). And the loader
(R537): its counter starts at 0, goes up by one with each process and picks the frame, and the
processes laid out keep the constraints of a layout. -/
def Obligations.Bootstrap : Prop :=
  (∀ (s : State) (f : BootFrame) (argv : List (List Byte)) (ramTop : Nat), s.mem.wf →
    f.fits ramTop argv.length = true → ramTop ≤ 2 ^ 32 →
    let table := argv.flatMap (fun str => str ++ [0#8])
    let t := s.bootstrap f argv
    (512 < table.length → t = { s with status := .halted .hostFatal s.pc none }) ∧
    (table.length ≤ 512 →
      t.gpr[(29 : Gpr)] = f.sp ∧ t.gpr[(4 : Gpr)] = BitVec.ofNat 32 argv.length ∧
      t.gpr[(5 : Gpr)] = f.sp + 4#32 ∧
      (∀ r : Gpr, r ∉ ([29, 4, 5] : List Gpr) → t.gpr[r] = s.gpr[r]) ∧
      t = { s with gpr := t.gpr, mem := t.mem } ∧
      (∀ (k : Nat) (h : k < table.length), t.byteAt (f.strtab + BitVec.ofNat 32 k) = table[k]) ∧
      (∀ (k : Nat) (h : k < f.fill.length), table.length + k < 512 →
        t.byteAt (f.strtab + BitVec.ofNat 32 (table.length + k)) = f.fill[k]) ∧
      t.wordOf f.sp = BitVec.ofNat 32 argv.length ∧
      (∀ k < argv.length, t.wordOf (f.sp + BitVec.ofNat 32 (4 + 4 * k)) =
        f.strtab +
          BitVec.ofNat 32 (((argv.take k).flatMap (fun str => str ++ [0#8])).length)) ∧
      (∀ (k : Nat) (h : k < 6),
        t.wordOf (f.sp + BitVec.ofNat 32 (4 + 4 * argv.length + 4 * k)) =
          [0#32, 0#32, 6#32, f.pageSize, 0#32, 0#32][k]) ∧
      ∀ a : Word, (∀ k < 512, a ≠ f.strtab + BitVec.ofNat 32 k) →
        (∀ k < 28 + 4 * argv.length, a ≠ f.sp + BitVec.ofNat 32 k) → t.byteAt a = s.byteAt a)) ∧
  Loader.start.counter = 0 ∧ (∀ ramTop : Nat, Loader.start.Ok ramTop) ∧
  ∀ (l l' : Loader) (layout : Nat → BootFrame) (ramTop : Nat) (s t : State) (argv : List (List Byte)),
    l.Ok ramTop → l.bootstrap layout ramTop s argv = some (l', t) →
    l'.counter = l.counter + 1 ∧ t = s.bootstrap (layout l.counter) argv ∧ l'.Ok ramTop
end

