-- ==== Sys2Proof/Laws/Encoding.lean ====
section
/-! SUPPORT. The bits of an encoded word: each format bit by bit, its conjunction with a mask, and its
fields. -/

namespace Sys2Proof

/-- All of a five-bit field. -/
theorem and_31 (a : BitVec 5) : a &&& 31#5 = a := BitVec.and_allOnes

/-- All of a six-bit field. -/
theorem and_63 (a : BitVec 6) : a &&& 63#6 = a := BitVec.and_allOnes

/-- The index a register field holds. -/
theorem toFin_reg (i : Fin 32) : (reg i).toFin = i := rfl

/-- The pieces of a word that `regAt` and the immediates read, bit by bit. -/
theorem regAt_eq (w : Word) (lo : Nat) (a : BitVec 5) (h : w.extractLsb' lo 5 = a) : regAt w lo = a.toFin := by
  rw [regAt, h]

/-- The bits of format R. -/
theorem getLsbD_formatR (op : BitVec 6) (a : BitVec 5) (b : BitVec 5) (c : BitVec 5) (d : BitVec 5) (funct : BitVec 6) (i : Nat) :
    (formatR op a b c d funct).getLsbD i =
    if i < 6 then funct.getLsbD (i) else if i < 11 then d.getLsbD (i - 6) else
      if i < 16 then c.getLsbD (i - 11) else if i < 21 then b.getLsbD (i - 16) else
      if i < 26 then a.getLsbD (i - 21) else op.getLsbD (i - 26) := by
  unfold formatR
  erw [BitVec.getLsbD_append, BitVec.getLsbD_append, BitVec.getLsbD_append, BitVec.getLsbD_append, BitVec.getLsbD_append]
  split_ifs <;> first | rfl | omega

/-- Format R under a mask. -/
theorem formatR_and (op : BitVec 6) (a : BitVec 5) (b : BitVec 5) (c : BitVec 5) (d : BitVec 5) (funct : BitVec 6) (m : Word) :
    formatR op a b c d funct &&& m =
      formatR (op &&& m.extractLsb' 26 6) (a &&& m.extractLsb' 21 5) (b &&& m.extractLsb' 16 5) (c &&& m.extractLsb' 11 5) (d &&& m.extractLsb' 6 5) (funct &&& m.extractLsb' 0 6) := by
  apply BitVec.eq_of_getLsbD_eq
  intro i hi
  rw [BitVec.getLsbD_and, getLsbD_formatR, getLsbD_formatR]
  interval_cases i <;> simp

/-- A field of format R. -/
theorem extract_formatR_op (op : BitVec 6) (a : BitVec 5) (b : BitVec 5) (c : BitVec 5) (d : BitVec 5) (funct : BitVec 6) :
    (formatR op a b c d funct).extractLsb' 26 6 = op := by
  apply BitVec.eq_of_getLsbD_eq
  intro i hi
  rw [BitVec.getLsbD_extractLsb', getLsbD_formatR]
  interval_cases i <;> simp

/-- A field of format R. -/
theorem extract_formatR_a (op : BitVec 6) (a : BitVec 5) (b : BitVec 5) (c : BitVec 5) (d : BitVec 5) (funct : BitVec 6) :
    (formatR op a b c d funct).extractLsb' 21 5 = a := by
  apply BitVec.eq_of_getLsbD_eq
  intro i hi
  rw [BitVec.getLsbD_extractLsb', getLsbD_formatR]
  interval_cases i <;> simp

/-- A field of format R. -/
theorem extract_formatR_b (op : BitVec 6) (a : BitVec 5) (b : BitVec 5) (c : BitVec 5) (d : BitVec 5) (funct : BitVec 6) :
    (formatR op a b c d funct).extractLsb' 16 5 = b := by
  apply BitVec.eq_of_getLsbD_eq
  intro i hi
  rw [BitVec.getLsbD_extractLsb', getLsbD_formatR]
  interval_cases i <;> simp

/-- A field of format R. -/
theorem extract_formatR_c (op : BitVec 6) (a : BitVec 5) (b : BitVec 5) (c : BitVec 5) (d : BitVec 5) (funct : BitVec 6) :
    (formatR op a b c d funct).extractLsb' 11 5 = c := by
  apply BitVec.eq_of_getLsbD_eq
  intro i hi
  rw [BitVec.getLsbD_extractLsb', getLsbD_formatR]
  interval_cases i <;> simp

/-- A field of format R. -/
theorem extract_formatR_d (op : BitVec 6) (a : BitVec 5) (b : BitVec 5) (c : BitVec 5) (d : BitVec 5) (funct : BitVec 6) :
    (formatR op a b c d funct).extractLsb' 6 5 = d := by
  apply BitVec.eq_of_getLsbD_eq
  intro i hi
  rw [BitVec.getLsbD_extractLsb', getLsbD_formatR]
  interval_cases i <;> simp

/-- A field of format R. -/
theorem extract_formatR_funct (op : BitVec 6) (a : BitVec 5) (b : BitVec 5) (c : BitVec 5) (d : BitVec 5) (funct : BitVec 6) :
    (formatR op a b c d funct).extractLsb' 0 6 = funct := by
  apply BitVec.eq_of_getLsbD_eq
  intro i hi
  rw [BitVec.getLsbD_extractLsb', getLsbD_formatR]
  interval_cases i <;> simp

/-- The bits of format I. -/
theorem getLsbD_formatI (op : BitVec 6) (a : BitVec 5) (b : BitVec 5) (imm : BitVec 16) (i : Nat) :
    (formatI op a b imm).getLsbD i =
    if i < 16 then imm.getLsbD (i) else if i < 21 then b.getLsbD (i - 16) else
      if i < 26 then a.getLsbD (i - 21) else op.getLsbD (i - 26) := by
  unfold formatI
  erw [BitVec.getLsbD_append, BitVec.getLsbD_append, BitVec.getLsbD_append]
  split_ifs <;> first | rfl | omega

/-- Format I under a mask. -/
theorem formatI_and (op : BitVec 6) (a : BitVec 5) (b : BitVec 5) (imm : BitVec 16) (m : Word) :
    formatI op a b imm &&& m =
      formatI (op &&& m.extractLsb' 26 6) (a &&& m.extractLsb' 21 5) (b &&& m.extractLsb' 16 5) (imm &&& m.extractLsb' 0 16) := by
  apply BitVec.eq_of_getLsbD_eq
  intro i hi
  rw [BitVec.getLsbD_and, getLsbD_formatI, getLsbD_formatI]
  interval_cases i <;> simp

/-- A field of format I. -/
theorem extract_formatI_op (op : BitVec 6) (a : BitVec 5) (b : BitVec 5) (imm : BitVec 16) :
    (formatI op a b imm).extractLsb' 26 6 = op := by
  apply BitVec.eq_of_getLsbD_eq
  intro i hi
  rw [BitVec.getLsbD_extractLsb', getLsbD_formatI]
  interval_cases i <;> simp

/-- A field of format I. -/
theorem extract_formatI_a (op : BitVec 6) (a : BitVec 5) (b : BitVec 5) (imm : BitVec 16) :
    (formatI op a b imm).extractLsb' 21 5 = a := by
  apply BitVec.eq_of_getLsbD_eq
  intro i hi
  rw [BitVec.getLsbD_extractLsb', getLsbD_formatI]
  interval_cases i <;> simp

/-- A field of format I. -/
theorem extract_formatI_b (op : BitVec 6) (a : BitVec 5) (b : BitVec 5) (imm : BitVec 16) :
    (formatI op a b imm).extractLsb' 16 5 = b := by
  apply BitVec.eq_of_getLsbD_eq
  intro i hi
  rw [BitVec.getLsbD_extractLsb', getLsbD_formatI]
  interval_cases i <;> simp

/-- A field of format I. -/
theorem extract_formatI_imm (op : BitVec 6) (a : BitVec 5) (b : BitVec 5) (imm : BitVec 16) :
    (formatI op a b imm).extractLsb' 0 16 = imm := by
  apply BitVec.eq_of_getLsbD_eq
  intro i hi
  rw [BitVec.getLsbD_extractLsb', getLsbD_formatI]
  interval_cases i <;> simp

/-- The bits of format J. -/
theorem getLsbD_formatJ (op : BitVec 6) (imm : BitVec 26) (i : Nat) :
    (formatJ op imm).getLsbD i =
    if i < 26 then imm.getLsbD (i) else op.getLsbD (i - 26) := by
  unfold formatJ
  erw [BitVec.getLsbD_append]

/-- Format J under a mask. -/
theorem formatJ_and (op : BitVec 6) (imm : BitVec 26) (m : Word) :
    formatJ op imm &&& m =
      formatJ (op &&& m.extractLsb' 26 6) (imm &&& m.extractLsb' 0 26) := by
  apply BitVec.eq_of_getLsbD_eq
  intro i hi
  rw [BitVec.getLsbD_and, getLsbD_formatJ, getLsbD_formatJ]
  interval_cases i <;> simp

/-- A field of format J. -/
theorem extract_formatJ_op (op : BitVec 6) (imm : BitVec 26) :
    (formatJ op imm).extractLsb' 26 6 = op := by
  apply BitVec.eq_of_getLsbD_eq
  intro i hi
  rw [BitVec.getLsbD_extractLsb', getLsbD_formatJ]
  interval_cases i <;> simp

/-- A field of format J. -/
theorem extract_formatJ_imm (op : BitVec 6) (imm : BitVec 26) :
    (formatJ op imm).extractLsb' 0 26 = imm := by
  apply BitVec.eq_of_getLsbD_eq
  intro i hi
  rw [BitVec.getLsbD_extractLsb', getLsbD_formatJ]
  interval_cases i <;> simp

/-- The bits of format CIH. -/
theorem getLsbD_formatCIH (op : BitVec 6) (imm : BitVec 20) (i : Nat) :
    (formatCIH op imm).getLsbD i =
    if i < 20 then imm.getLsbD (i) else if i < 26 then false else op.getLsbD (i - 26) := by
  unfold formatCIH
  erw [BitVec.getLsbD_append, BitVec.getLsbD_append]
  split_ifs <;> first | rfl | omega | simp

/-- Format CIH under a mask. -/
theorem formatCIH_and (op : BitVec 6) (imm : BitVec 20) (m : Word) :
    formatCIH op imm &&& m =
      formatCIH (op &&& m.extractLsb' 26 6) (imm &&& m.extractLsb' 0 20) := by
  apply BitVec.eq_of_getLsbD_eq
  intro i hi
  rw [BitVec.getLsbD_and, getLsbD_formatCIH, getLsbD_formatCIH]
  interval_cases i <;> simp

/-- A field of format CIH. -/
theorem extract_formatCIH_op (op : BitVec 6) (imm : BitVec 20) :
    (formatCIH op imm).extractLsb' 26 6 = op := by
  apply BitVec.eq_of_getLsbD_eq
  intro i hi
  rw [BitVec.getLsbD_extractLsb', getLsbD_formatCIH]
  interval_cases i <;> simp

/-- A field of format CIH. -/
theorem extract_formatCIH_imm (op : BitVec 6) (imm : BitVec 20) :
    (formatCIH op imm).extractLsb' 0 20 = imm := by
  apply BitVec.eq_of_getLsbD_eq
  intro i hi
  rw [BitVec.getLsbD_extractLsb', getLsbD_formatCIH]
  interval_cases i <;> simp

/-- The bits of format CIJ. -/
theorem getLsbD_formatCIJ (op : BitVec 6) (a : BitVec 5) (imm : BitVec 12) (i : Nat) :
    (formatCIJ op a imm).getLsbD i =
    if i < 12 then imm.getLsbD (i) else if i < 21 then false else
      if i < 26 then a.getLsbD (i - 21) else op.getLsbD (i - 26) := by
  unfold formatCIJ
  erw [BitVec.getLsbD_append, BitVec.getLsbD_append, BitVec.getLsbD_append]
  split_ifs <;> first | rfl | omega | simp

/-- Format CIJ under a mask. -/
theorem formatCIJ_and (op : BitVec 6) (a : BitVec 5) (imm : BitVec 12) (m : Word) :
    formatCIJ op a imm &&& m =
      formatCIJ (op &&& m.extractLsb' 26 6) (a &&& m.extractLsb' 21 5) (imm &&& m.extractLsb' 0 12) := by
  apply BitVec.eq_of_getLsbD_eq
  intro i hi
  rw [BitVec.getLsbD_and, getLsbD_formatCIJ, getLsbD_formatCIJ]
  interval_cases i <;> simp

/-- A field of format CIJ. -/
theorem extract_formatCIJ_op (op : BitVec 6) (a : BitVec 5) (imm : BitVec 12) :
    (formatCIJ op a imm).extractLsb' 26 6 = op := by
  apply BitVec.eq_of_getLsbD_eq
  intro i hi
  rw [BitVec.getLsbD_extractLsb', getLsbD_formatCIJ]
  interval_cases i <;> simp

/-- A field of format CIJ. -/
theorem extract_formatCIJ_a (op : BitVec 6) (a : BitVec 5) (imm : BitVec 12) :
    (formatCIJ op a imm).extractLsb' 21 5 = a := by
  apply BitVec.eq_of_getLsbD_eq
  intro i hi
  rw [BitVec.getLsbD_extractLsb', getLsbD_formatCIJ]
  interval_cases i <;> simp

/-- A field of format CIJ. -/
theorem extract_formatCIJ_imm (op : BitVec 6) (a : BitVec 5) (imm : BitVec 12) :
    (formatCIJ op a imm).extractLsb' 0 12 = imm := by
  apply BitVec.eq_of_getLsbD_eq
  intro i hi
  rw [BitVec.getLsbD_extractLsb', getLsbD_formatCIJ]
  interval_cases i <;> simp

/-- The bits of format CLH. -/
theorem getLsbD_formatCLH (op : BitVec 6) (imm : BitVec 18) (i : Nat) :
    (formatCLH op imm).getLsbD i =
    if i < 18 then imm.getLsbD (i) else if i < 26 then false else op.getLsbD (i - 26) := by
  unfold formatCLH
  erw [BitVec.getLsbD_append, BitVec.getLsbD_append]
  split_ifs <;> first | rfl | omega | simp

/-- Format CLH under a mask. -/
theorem formatCLH_and (op : BitVec 6) (imm : BitVec 18) (m : Word) :
    formatCLH op imm &&& m =
      formatCLH (op &&& m.extractLsb' 26 6) (imm &&& m.extractLsb' 0 18) := by
  apply BitVec.eq_of_getLsbD_eq
  intro i hi
  rw [BitVec.getLsbD_and, getLsbD_formatCLH, getLsbD_formatCLH]
  interval_cases i <;> simp

/-- A field of format CLH. -/
theorem extract_formatCLH_op (op : BitVec 6) (imm : BitVec 18) :
    (formatCLH op imm).extractLsb' 26 6 = op := by
  apply BitVec.eq_of_getLsbD_eq
  intro i hi
  rw [BitVec.getLsbD_extractLsb', getLsbD_formatCLH]
  interval_cases i <;> simp

/-- A field of format CLH. -/
theorem extract_formatCLH_imm (op : BitVec 6) (imm : BitVec 18) :
    (formatCLH op imm).extractLsb' 0 18 = imm := by
  apply BitVec.eq_of_getLsbD_eq
  intro i hi
  rw [BitVec.getLsbD_extractLsb', getLsbD_formatCLH]
  interval_cases i <;> simp

/-- The bits of format CLI. -/
theorem getLsbD_formatCLI (op : BitVec 6) (b : BitVec 5) (imm : BitVec 14) (i : Nat) :
    (formatCLI op b imm).getLsbD i =
    if i < 14 then imm.getLsbD (i) else if i < 16 then false else
      if i < 21 then b.getLsbD (i - 16) else if i < 26 then false else op.getLsbD (i - 26) := by
  unfold formatCLI
  erw [BitVec.getLsbD_append, BitVec.getLsbD_append, BitVec.getLsbD_append, BitVec.getLsbD_append]
  split_ifs <;> first | rfl | omega | simp

/-- Format CLI under a mask. -/
theorem formatCLI_and (op : BitVec 6) (b : BitVec 5) (imm : BitVec 14) (m : Word) :
    formatCLI op b imm &&& m =
      formatCLI (op &&& m.extractLsb' 26 6) (b &&& m.extractLsb' 16 5) (imm &&& m.extractLsb' 0 14) := by
  apply BitVec.eq_of_getLsbD_eq
  intro i hi
  rw [BitVec.getLsbD_and, getLsbD_formatCLI, getLsbD_formatCLI]
  interval_cases i <;> simp

/-- A field of format CLI. -/
theorem extract_formatCLI_op (op : BitVec 6) (b : BitVec 5) (imm : BitVec 14) :
    (formatCLI op b imm).extractLsb' 26 6 = op := by
  apply BitVec.eq_of_getLsbD_eq
  intro i hi
  rw [BitVec.getLsbD_extractLsb', getLsbD_formatCLI]
  interval_cases i <;> simp

/-- A field of format CLI. -/
theorem extract_formatCLI_b (op : BitVec 6) (b : BitVec 5) (imm : BitVec 14) :
    (formatCLI op b imm).extractLsb' 16 5 = b := by
  apply BitVec.eq_of_getLsbD_eq
  intro i hi
  rw [BitVec.getLsbD_extractLsb', getLsbD_formatCLI]
  interval_cases i <;> simp

/-- A field of format CLI. -/
theorem extract_formatCLI_imm (op : BitVec 6) (b : BitVec 5) (imm : BitVec 14) :
    (formatCLI op b imm).extractLsb' 0 14 = imm := by
  apply BitVec.eq_of_getLsbD_eq
  intro i hi
  rw [BitVec.getLsbD_extractLsb', getLsbD_formatCLI]
  interval_cases i <;> simp

/-- The bits of format RT. -/
theorem getLsbD_formatRT (a : BitVec 5) (b : BitVec 5) (code : BitVec 10) (funct : BitVec 6) (i : Nat) :
    (formatRT a b code funct).getLsbD i =
    if i < 6 then funct.getLsbD (i) else if i < 16 then code.getLsbD (i - 6) else
      if i < 21 then b.getLsbD (i - 16) else if i < 26 then a.getLsbD (i - 21) else false := by
  unfold formatRT
  erw [BitVec.getLsbD_append, BitVec.getLsbD_append, BitVec.getLsbD_append, BitVec.getLsbD_append]
  split_ifs <;> first | rfl | omega | simp

/-- Format RT under a mask. -/
theorem formatRT_and (a : BitVec 5) (b : BitVec 5) (code : BitVec 10) (funct : BitVec 6) (m : Word) :
    formatRT a b code funct &&& m =
      formatRT (a &&& m.extractLsb' 21 5) (b &&& m.extractLsb' 16 5) (code &&& m.extractLsb' 6 10) (funct &&& m.extractLsb' 0 6) := by
  apply BitVec.eq_of_getLsbD_eq
  intro i hi
  rw [BitVec.getLsbD_and, getLsbD_formatRT, getLsbD_formatRT]
  interval_cases i <;> simp

/-- A field of format RT. -/
theorem extract_formatRT_a (a : BitVec 5) (b : BitVec 5) (code : BitVec 10) (funct : BitVec 6) :
    (formatRT a b code funct).extractLsb' 21 5 = a := by
  apply BitVec.eq_of_getLsbD_eq
  intro i hi
  rw [BitVec.getLsbD_extractLsb', getLsbD_formatRT]
  interval_cases i <;> simp

/-- A field of format RT. -/
theorem extract_formatRT_b (a : BitVec 5) (b : BitVec 5) (code : BitVec 10) (funct : BitVec 6) :
    (formatRT a b code funct).extractLsb' 16 5 = b := by
  apply BitVec.eq_of_getLsbD_eq
  intro i hi
  rw [BitVec.getLsbD_extractLsb', getLsbD_formatRT]
  interval_cases i <;> simp

/-- A field of format RT. -/
theorem extract_formatRT_code (a : BitVec 5) (b : BitVec 5) (code : BitVec 10) (funct : BitVec 6) :
    (formatRT a b code funct).extractLsb' 6 10 = code := by
  apply BitVec.eq_of_getLsbD_eq
  intro i hi
  rw [BitVec.getLsbD_extractLsb', getLsbD_formatRT]
  interval_cases i <;> simp

/-- A field of format RT. -/
theorem extract_formatRT_funct (a : BitVec 5) (b : BitVec 5) (code : BitVec 10) (funct : BitVec 6) :
    (formatRT a b code funct).extractLsb' 0 6 = funct := by
  apply BitVec.eq_of_getLsbD_eq
  intro i hi
  rw [BitVec.getLsbD_extractLsb', getLsbD_formatRT]
  interval_cases i <;> simp

/-- The bits of format RS. -/
theorem getLsbD_formatRS (code : BitVec 20) (funct : BitVec 6) (i : Nat) :
    (formatRS code funct).getLsbD i =
    if i < 6 then funct.getLsbD (i) else if i < 26 then code.getLsbD (i - 6) else false := by
  unfold formatRS
  erw [BitVec.getLsbD_append, BitVec.getLsbD_append]
  split_ifs <;> first | rfl | omega | simp

/-- Format RS under a mask. -/
theorem formatRS_and (code : BitVec 20) (funct : BitVec 6) (m : Word) :
    formatRS code funct &&& m =
      formatRS (code &&& m.extractLsb' 6 20) (funct &&& m.extractLsb' 0 6) := by
  apply BitVec.eq_of_getLsbD_eq
  intro i hi
  rw [BitVec.getLsbD_and, getLsbD_formatRS, getLsbD_formatRS]
  interval_cases i <;> simp

/-- A field of format RS. -/
theorem extract_formatRS_code (code : BitVec 20) (funct : BitVec 6) :
    (formatRS code funct).extractLsb' 6 20 = code := by
  apply BitVec.eq_of_getLsbD_eq
  intro i hi
  rw [BitVec.getLsbD_extractLsb', getLsbD_formatRS]
  interval_cases i <;> simp

/-- A field of format RS. -/
theorem extract_formatRS_funct (code : BitVec 20) (funct : BitVec 6) :
    (formatRS code funct).extractLsb' 0 6 = funct := by
  apply BitVec.eq_of_getLsbD_eq
  intro i hi
  rw [BitVec.getLsbD_extractLsb', getLsbD_formatRS]
  interval_cases i <;> simp

end Sys2Proof
end

