-- ==== Sys2Proof/Laws/State.lean ====
section
/-! SUPPORT. One lemma for each field and each update of State, so that no later proof unfolds a record
update. -/

namespace Sys2Proof.Machine

/-- GPR 0 is ordinary storage: every read is a read of the file (10_state.md R42). -/
@[simp] theorem State.readGpr_eq (s : State) (r : Gpr) : s.readGpr r = s.gpr[r] := rfl

@[simp] theorem State.halt_gpr (s : State) (t : Trap) (w : Option Word) : (s.halt t w).gpr = s.gpr := rfl
@[simp] theorem State.halt_hi (s : State) (t : Trap) (w : Option Word) : (s.halt t w).hi = s.hi := rfl
@[simp] theorem State.halt_lo (s : State) (t : Trap) (w : Option Word) : (s.halt t w).lo = s.lo := rfl
@[simp] theorem State.halt_pc (s : State) (t : Trap) (w : Option Word) : (s.halt t w).pc = s.pc := rfl
@[simp] theorem State.halt_cc (s : State) (t : Trap) (w : Option Word) : (s.halt t w).cc = s.cc := rfl
@[simp] theorem State.halt_fpr (s : State) (t : Trap) (w : Option Word) : (s.halt t w).fpr = s.fpr := rfl
@[simp] theorem State.halt_ldireg (s : State) (t : Trap) (w : Option Word) : (s.halt t w).ldireg = s.ldireg := rfl
@[simp] theorem State.halt_ijmpreg (s : State) (t : Trap) (w : Option Word) : (s.halt t w).ijmpreg = s.ijmpreg := rfl
@[simp] theorem State.halt_status (s : State) (t : Trap) (w : Option Word) : (s.halt t w).status = .halted t s.pc w := rfl
@[simp] theorem State.halt_control (s : State) (t : Trap) (w : Option Word) : (s.halt t w).control = s.control := rfl
@[simp] theorem State.halt_mem (s : State) (t : Trap) (w : Option Word) : (s.halt t w).mem = s.mem := rfl
@[simp] theorem State.halt_stored (s : State) (t : Trap) (w : Option Word) : (s.halt t w).stored = s.stored := rfl
@[simp] theorem State.halt_emb (s : State) (t : Trap) (w : Option Word) : (s.halt t w).emb = s.emb := rfl
@[simp] theorem State.halt_hostReplies (s : State) (t : Trap) (w : Option Word) : (s.halt t w).hostReplies = s.hostReplies := rfl
@[simp] theorem State.halt_draws (s : State) (t : Trap) (w : Option Word) : (s.halt t w).draws = s.draws := rfl

@[simp] theorem State.writeGpr_gpr (s : State) (r : Gpr) (v : Word) : (s.writeGpr r v).gpr = s.gpr.set r v := rfl
@[simp] theorem State.writeGpr_hi (s : State) (r : Gpr) (v : Word) : (s.writeGpr r v).hi = s.hi := rfl
@[simp] theorem State.writeGpr_lo (s : State) (r : Gpr) (v : Word) : (s.writeGpr r v).lo = s.lo := rfl
@[simp] theorem State.writeGpr_pc (s : State) (r : Gpr) (v : Word) : (s.writeGpr r v).pc = s.pc := rfl
@[simp] theorem State.writeGpr_cc (s : State) (r : Gpr) (v : Word) : (s.writeGpr r v).cc = s.cc := rfl
@[simp] theorem State.writeGpr_fpr (s : State) (r : Gpr) (v : Word) : (s.writeGpr r v).fpr = s.fpr := rfl
@[simp] theorem State.writeGpr_ldireg (s : State) (r : Gpr) (v : Word) : (s.writeGpr r v).ldireg = s.ldireg := rfl
@[simp] theorem State.writeGpr_ijmpreg (s : State) (r : Gpr) (v : Word) : (s.writeGpr r v).ijmpreg = s.ijmpreg := rfl
@[simp] theorem State.writeGpr_status (s : State) (r : Gpr) (v : Word) : (s.writeGpr r v).status = s.status := rfl
@[simp] theorem State.writeGpr_control (s : State) (r : Gpr) (v : Word) : (s.writeGpr r v).control = s.control := rfl
@[simp] theorem State.writeGpr_mem (s : State) (r : Gpr) (v : Word) : (s.writeGpr r v).mem = s.mem := rfl
@[simp] theorem State.writeGpr_stored (s : State) (r : Gpr) (v : Word) : (s.writeGpr r v).stored = s.stored := rfl
@[simp] theorem State.writeGpr_emb (s : State) (r : Gpr) (v : Word) : (s.writeGpr r v).emb = s.emb := rfl
@[simp] theorem State.writeGpr_hostReplies (s : State) (r : Gpr) (v : Word) : (s.writeGpr r v).hostReplies = s.hostReplies := rfl
@[simp] theorem State.writeGpr_draws (s : State) (r : Gpr) (v : Word) : (s.writeGpr r v).draws = s.draws := rfl

@[simp] theorem State.writeCc_gpr (s : State) (b : Bool) : (s.writeCc b).gpr = s.gpr := rfl
@[simp] theorem State.writeCc_hi (s : State) (b : Bool) : (s.writeCc b).hi = s.hi := rfl
@[simp] theorem State.writeCc_lo (s : State) (b : Bool) : (s.writeCc b).lo = s.lo := rfl
@[simp] theorem State.writeCc_pc (s : State) (b : Bool) : (s.writeCc b).pc = s.pc := rfl
@[simp] theorem State.writeCc_cc (s : State) (b : Bool) : (s.writeCc b).cc = .wrote b := rfl
@[simp] theorem State.writeCc_fpr (s : State) (b : Bool) : (s.writeCc b).fpr = s.fpr := rfl
@[simp] theorem State.writeCc_ldireg (s : State) (b : Bool) : (s.writeCc b).ldireg = s.ldireg := rfl
@[simp] theorem State.writeCc_ijmpreg (s : State) (b : Bool) : (s.writeCc b).ijmpreg = s.ijmpreg := rfl
@[simp] theorem State.writeCc_status (s : State) (b : Bool) : (s.writeCc b).status = s.status := rfl
@[simp] theorem State.writeCc_control (s : State) (b : Bool) : (s.writeCc b).control = s.control := rfl
@[simp] theorem State.writeCc_mem (s : State) (b : Bool) : (s.writeCc b).mem = s.mem := rfl
@[simp] theorem State.writeCc_stored (s : State) (b : Bool) : (s.writeCc b).stored = s.stored := rfl
@[simp] theorem State.writeCc_emb (s : State) (b : Bool) : (s.writeCc b).emb = s.emb := rfl
@[simp] theorem State.writeCc_hostReplies (s : State) (b : Bool) : (s.writeCc b).hostReplies = s.hostReplies := rfl
@[simp] theorem State.writeCc_draws (s : State) (b : Bool) : (s.writeCc b).draws = s.draws := rfl

@[simp] theorem State.writeS_gpr (s : State) (j : Fpr) (b : Word) : (s.writeS j b).gpr = s.gpr := rfl
@[simp] theorem State.writeS_hi (s : State) (j : Fpr) (b : Word) : (s.writeS j b).hi = s.hi := rfl
@[simp] theorem State.writeS_lo (s : State) (j : Fpr) (b : Word) : (s.writeS j b).lo = s.lo := rfl
@[simp] theorem State.writeS_pc (s : State) (j : Fpr) (b : Word) : (s.writeS j b).pc = s.pc := rfl
@[simp] theorem State.writeS_cc (s : State) (j : Fpr) (b : Word) : (s.writeS j b).cc = s.cc := rfl
@[simp] theorem State.writeS_fpr (s : State) (j : Fpr) (b : Word) : (s.writeS j b).fpr = s.fpr.set j (.wrote b) := rfl
@[simp] theorem State.writeS_ldireg (s : State) (j : Fpr) (b : Word) : (s.writeS j b).ldireg = s.ldireg := rfl
@[simp] theorem State.writeS_ijmpreg (s : State) (j : Fpr) (b : Word) : (s.writeS j b).ijmpreg = s.ijmpreg := rfl
@[simp] theorem State.writeS_status (s : State) (j : Fpr) (b : Word) : (s.writeS j b).status = s.status := rfl
@[simp] theorem State.writeS_control (s : State) (j : Fpr) (b : Word) : (s.writeS j b).control = s.control := rfl
@[simp] theorem State.writeS_mem (s : State) (j : Fpr) (b : Word) : (s.writeS j b).mem = s.mem := rfl
@[simp] theorem State.writeS_stored (s : State) (j : Fpr) (b : Word) : (s.writeS j b).stored = s.stored := rfl
@[simp] theorem State.writeS_emb (s : State) (j : Fpr) (b : Word) : (s.writeS j b).emb = s.emb := rfl
@[simp] theorem State.writeS_hostReplies (s : State) (j : Fpr) (b : Word) : (s.writeS j b).hostReplies = s.hostReplies := rfl
@[simp] theorem State.writeS_draws (s : State) (j : Fpr) (b : Word) : (s.writeS j b).draws = s.draws := rfl

@[simp] theorem State.writeD_gpr (s : State) (i : Fpr) (b : DWord) : (s.writeD i b).gpr = s.gpr := rfl
@[simp] theorem State.writeD_hi (s : State) (i : Fpr) (b : DWord) : (s.writeD i b).hi = s.hi := rfl
@[simp] theorem State.writeD_lo (s : State) (i : Fpr) (b : DWord) : (s.writeD i b).lo = s.lo := rfl
@[simp] theorem State.writeD_pc (s : State) (i : Fpr) (b : DWord) : (s.writeD i b).pc = s.pc := rfl
@[simp] theorem State.writeD_cc (s : State) (i : Fpr) (b : DWord) : (s.writeD i b).cc = s.cc := rfl
@[simp] theorem State.writeD_fpr (s : State) (i : Fpr) (b : DWord) : (s.writeD i b).fpr = 
    (s.fpr.set i (.wrote (b.extractLsb' 0 32))).set (i + 1 : Fpr) (.wrote (b.extractLsb' 32 32)) := rfl
@[simp] theorem State.writeD_ldireg (s : State) (i : Fpr) (b : DWord) : (s.writeD i b).ldireg = s.ldireg := rfl
@[simp] theorem State.writeD_ijmpreg (s : State) (i : Fpr) (b : DWord) : (s.writeD i b).ijmpreg = s.ijmpreg := rfl
@[simp] theorem State.writeD_status (s : State) (i : Fpr) (b : DWord) : (s.writeD i b).status = s.status := rfl
@[simp] theorem State.writeD_control (s : State) (i : Fpr) (b : DWord) : (s.writeD i b).control = s.control := rfl
@[simp] theorem State.writeD_mem (s : State) (i : Fpr) (b : DWord) : (s.writeD i b).mem = s.mem := rfl
@[simp] theorem State.writeD_stored (s : State) (i : Fpr) (b : DWord) : (s.writeD i b).stored = s.stored := rfl
@[simp] theorem State.writeD_emb (s : State) (i : Fpr) (b : DWord) : (s.writeD i b).emb = s.emb := rfl
@[simp] theorem State.writeD_hostReplies (s : State) (i : Fpr) (b : DWord) : (s.writeD i b).hostReplies = s.hostReplies := rfl
@[simp] theorem State.writeD_draws (s : State) (i : Fpr) (b : DWord) : (s.writeD i b).draws = s.draws := rfl

@[simp] theorem State.putBytes_gpr (s : State) (a : Word) (l : List Byte) : (s.putBytes a l).gpr = s.gpr := rfl
@[simp] theorem State.putBytes_hi (s : State) (a : Word) (l : List Byte) : (s.putBytes a l).hi = s.hi := rfl
@[simp] theorem State.putBytes_lo (s : State) (a : Word) (l : List Byte) : (s.putBytes a l).lo = s.lo := rfl
@[simp] theorem State.putBytes_pc (s : State) (a : Word) (l : List Byte) : (s.putBytes a l).pc = s.pc := rfl
@[simp] theorem State.putBytes_cc (s : State) (a : Word) (l : List Byte) : (s.putBytes a l).cc = s.cc := rfl
@[simp] theorem State.putBytes_fpr (s : State) (a : Word) (l : List Byte) : (s.putBytes a l).fpr = s.fpr := rfl
@[simp] theorem State.putBytes_ldireg (s : State) (a : Word) (l : List Byte) : (s.putBytes a l).ldireg = s.ldireg := rfl
@[simp] theorem State.putBytes_ijmpreg (s : State) (a : Word) (l : List Byte) : (s.putBytes a l).ijmpreg = s.ijmpreg := rfl
@[simp] theorem State.putBytes_status (s : State) (a : Word) (l : List Byte) : (s.putBytes a l).status = s.status := rfl
@[simp] theorem State.putBytes_control (s : State) (a : Word) (l : List Byte) : (s.putBytes a l).control = s.control := rfl
@[simp] theorem State.putBytes_mem (s : State) (a : Word) (l : List Byte) : (s.putBytes a l).mem = s.mem.writeBytes a l := rfl
@[simp] theorem State.putBytes_stored (s : State) (a : Word) (l : List Byte) : (s.putBytes a l).stored = s.stored.insertRun a l.length := rfl
@[simp] theorem State.putBytes_emb (s : State) (a : Word) (l : List Byte) : (s.putBytes a l).emb = s.emb := rfl
@[simp] theorem State.putBytes_hostReplies (s : State) (a : Word) (l : List Byte) : (s.putBytes a l).hostReplies = s.hostReplies := rfl
@[simp] theorem State.putBytes_draws (s : State) (a : Word) (l : List Byte) : (s.putBytes a l).draws = s.draws := rfl

@[simp] theorem State.writeUnlessZero_gpr (s : State) (r : Gpr) (v : Word) : (s.writeUnlessZero r v).gpr = if r = 0 then s.gpr else s.gpr.set r v := by
  unfold State.writeUnlessZero; split <;> rfl
@[simp] theorem State.writeUnlessZero_hi (s : State) (r : Gpr) (v : Word) : (s.writeUnlessZero r v).hi = s.hi := by
  unfold State.writeUnlessZero; split <;> rfl
@[simp] theorem State.writeUnlessZero_lo (s : State) (r : Gpr) (v : Word) : (s.writeUnlessZero r v).lo = s.lo := by
  unfold State.writeUnlessZero; split <;> rfl
@[simp] theorem State.writeUnlessZero_pc (s : State) (r : Gpr) (v : Word) : (s.writeUnlessZero r v).pc = s.pc := by
  unfold State.writeUnlessZero; split <;> rfl
@[simp] theorem State.writeUnlessZero_cc (s : State) (r : Gpr) (v : Word) : (s.writeUnlessZero r v).cc = s.cc := by
  unfold State.writeUnlessZero; split <;> rfl
@[simp] theorem State.writeUnlessZero_fpr (s : State) (r : Gpr) (v : Word) : (s.writeUnlessZero r v).fpr = s.fpr := by
  unfold State.writeUnlessZero; split <;> rfl
@[simp] theorem State.writeUnlessZero_ldireg (s : State) (r : Gpr) (v : Word) : (s.writeUnlessZero r v).ldireg = s.ldireg := by
  unfold State.writeUnlessZero; split <;> rfl
@[simp] theorem State.writeUnlessZero_ijmpreg (s : State) (r : Gpr) (v : Word) : (s.writeUnlessZero r v).ijmpreg = s.ijmpreg := by
  unfold State.writeUnlessZero; split <;> rfl
@[simp] theorem State.writeUnlessZero_status (s : State) (r : Gpr) (v : Word) : (s.writeUnlessZero r v).status = s.status := by
  unfold State.writeUnlessZero; split <;> rfl
@[simp] theorem State.writeUnlessZero_control (s : State) (r : Gpr) (v : Word) : (s.writeUnlessZero r v).control = s.control := by
  unfold State.writeUnlessZero; split <;> rfl
@[simp] theorem State.writeUnlessZero_mem (s : State) (r : Gpr) (v : Word) : (s.writeUnlessZero r v).mem = s.mem := by
  unfold State.writeUnlessZero; split <;> rfl
@[simp] theorem State.writeUnlessZero_stored (s : State) (r : Gpr) (v : Word) : (s.writeUnlessZero r v).stored = s.stored := by
  unfold State.writeUnlessZero; split <;> rfl
@[simp] theorem State.writeUnlessZero_emb (s : State) (r : Gpr) (v : Word) : (s.writeUnlessZero r v).emb = s.emb := by
  unfold State.writeUnlessZero; split <;> rfl
@[simp] theorem State.writeUnlessZero_hostReplies (s : State) (r : Gpr) (v : Word) : (s.writeUnlessZero r v).hostReplies = s.hostReplies := by
  unfold State.writeUnlessZero; split <;> rfl
@[simp] theorem State.writeUnlessZero_draws (s : State) (r : Gpr) (v : Word) : (s.writeUnlessZero r v).draws = s.draws := by
  unfold State.writeUnlessZero; split <;> rfl

@[simp] theorem State.link_gpr (s : State) : (s.link).gpr = s.gpr.set (31 : Gpr) (s.pc + 4#32) := rfl
@[simp] theorem State.link_hi (s : State) : (s.link).hi = s.hi := rfl
@[simp] theorem State.link_lo (s : State) : (s.link).lo = s.lo := rfl
@[simp] theorem State.link_pc (s : State) : (s.link).pc = s.pc := rfl
@[simp] theorem State.link_cc (s : State) : (s.link).cc = s.cc := rfl
@[simp] theorem State.link_fpr (s : State) : (s.link).fpr = s.fpr := rfl
@[simp] theorem State.link_ldireg (s : State) : (s.link).ldireg = s.ldireg := rfl
@[simp] theorem State.link_ijmpreg (s : State) : (s.link).ijmpreg = s.ijmpreg := rfl
@[simp] theorem State.link_status (s : State) : (s.link).status = s.status := rfl
@[simp] theorem State.link_control (s : State) : (s.link).control = s.control := rfl
@[simp] theorem State.link_mem (s : State) : (s.link).mem = s.mem := rfl
@[simp] theorem State.link_stored (s : State) : (s.link).stored = s.stored := rfl
@[simp] theorem State.link_emb (s : State) : (s.link).emb = s.emb := rfl
@[simp] theorem State.link_hostReplies (s : State) : (s.link).hostReplies = s.hostReplies := rfl
@[simp] theorem State.link_draws (s : State) : (s.link).draws = s.draws := rfl

@[simp] theorem State.hostReturn_gpr (s : State) (r flag : Word) : (s.hostReturn r flag).gpr = (s.gpr.set (2 : Gpr) r).set (7 : Gpr) flag := rfl
@[simp] theorem State.hostReturn_hi (s : State) (r flag : Word) : (s.hostReturn r flag).hi = s.hi := rfl
@[simp] theorem State.hostReturn_lo (s : State) (r flag : Word) : (s.hostReturn r flag).lo = s.lo := rfl
@[simp] theorem State.hostReturn_pc (s : State) (r flag : Word) : (s.hostReturn r flag).pc = s.pc := rfl
@[simp] theorem State.hostReturn_cc (s : State) (r flag : Word) : (s.hostReturn r flag).cc = s.cc := rfl
@[simp] theorem State.hostReturn_fpr (s : State) (r flag : Word) : (s.hostReturn r flag).fpr = s.fpr := rfl
@[simp] theorem State.hostReturn_ldireg (s : State) (r flag : Word) : (s.hostReturn r flag).ldireg = s.ldireg := rfl
@[simp] theorem State.hostReturn_ijmpreg (s : State) (r flag : Word) : (s.hostReturn r flag).ijmpreg = s.ijmpreg := rfl
@[simp] theorem State.hostReturn_status (s : State) (r flag : Word) : (s.hostReturn r flag).status = s.status := rfl
@[simp] theorem State.hostReturn_control (s : State) (r flag : Word) : (s.hostReturn r flag).control = s.control := rfl
@[simp] theorem State.hostReturn_mem (s : State) (r flag : Word) : (s.hostReturn r flag).mem = s.mem := rfl
@[simp] theorem State.hostReturn_stored (s : State) (r flag : Word) : (s.hostReturn r flag).stored = s.stored := rfl
@[simp] theorem State.hostReturn_emb (s : State) (r flag : Word) : (s.hostReturn r flag).emb = s.emb := rfl
@[simp] theorem State.hostReturn_hostReplies (s : State) (r flag : Word) : (s.hostReturn r flag).hostReplies = s.hostReplies := rfl
@[simp] theorem State.hostReturn_draws (s : State) (r flag : Word) : (s.hostReturn r flag).draws = s.draws := rfl

@[simp] theorem State.shiftDown_hi (s : State) : (s.shiftDown).hi = s.hi := rfl
@[simp] theorem State.shiftDown_lo (s : State) : (s.shiftDown).lo = s.lo := rfl
@[simp] theorem State.shiftDown_pc (s : State) : (s.shiftDown).pc = s.pc := rfl
@[simp] theorem State.shiftDown_cc (s : State) : (s.shiftDown).cc = s.cc := rfl
@[simp] theorem State.shiftDown_fpr (s : State) : (s.shiftDown).fpr = s.fpr := rfl
@[simp] theorem State.shiftDown_ldireg (s : State) : (s.shiftDown).ldireg = s.ldireg := rfl
@[simp] theorem State.shiftDown_ijmpreg (s : State) : (s.shiftDown).ijmpreg = s.ijmpreg := rfl
@[simp] theorem State.shiftDown_status (s : State) : (s.shiftDown).status = s.status := rfl
@[simp] theorem State.shiftDown_control (s : State) : (s.shiftDown).control = s.control := rfl
@[simp] theorem State.shiftDown_mem (s : State) : (s.shiftDown).mem = s.mem := rfl
@[simp] theorem State.shiftDown_stored (s : State) : (s.shiftDown).stored = s.stored := rfl
@[simp] theorem State.shiftDown_emb (s : State) : (s.shiftDown).emb = s.emb := rfl
@[simp] theorem State.shiftDown_hostReplies (s : State) : (s.shiftDown).hostReplies = s.hostReplies := rfl
@[simp] theorem State.shiftDown_draws (s : State) : (s.shiftDown).draws = s.draws := rfl

@[simp] theorem State.writePair_hi (s : State) (rd rh : Gpr) (l h : Word) : (s.writePair rd rh l h).hi = s.hi := by
  unfold State.writePair; split <;> simp
@[simp] theorem State.writePair_lo (s : State) (rd rh : Gpr) (l h : Word) : (s.writePair rd rh l h).lo = s.lo := by
  unfold State.writePair; split <;> simp
@[simp] theorem State.writePair_pc (s : State) (rd rh : Gpr) (l h : Word) : (s.writePair rd rh l h).pc = s.pc := by
  unfold State.writePair; split <;> simp
@[simp] theorem State.writePair_cc (s : State) (rd rh : Gpr) (l h : Word) : (s.writePair rd rh l h).cc = s.cc := by
  unfold State.writePair; split <;> simp
@[simp] theorem State.writePair_fpr (s : State) (rd rh : Gpr) (l h : Word) : (s.writePair rd rh l h).fpr = s.fpr := by
  unfold State.writePair; split <;> simp
@[simp] theorem State.writePair_ldireg (s : State) (rd rh : Gpr) (l h : Word) : (s.writePair rd rh l h).ldireg = s.ldireg := by
  unfold State.writePair; split <;> simp
@[simp] theorem State.writePair_ijmpreg (s : State) (rd rh : Gpr) (l h : Word) : (s.writePair rd rh l h).ijmpreg = s.ijmpreg := by
  unfold State.writePair; split <;> simp
@[simp] theorem State.writePair_status (s : State) (rd rh : Gpr) (l h : Word) : (s.writePair rd rh l h).status = s.status := by
  unfold State.writePair; split <;> simp
@[simp] theorem State.writePair_control (s : State) (rd rh : Gpr) (l h : Word) : (s.writePair rd rh l h).control = s.control := by
  unfold State.writePair; split <;> simp
@[simp] theorem State.writePair_mem (s : State) (rd rh : Gpr) (l h : Word) : (s.writePair rd rh l h).mem = s.mem := by
  unfold State.writePair; split <;> simp
@[simp] theorem State.writePair_stored (s : State) (rd rh : Gpr) (l h : Word) : (s.writePair rd rh l h).stored = s.stored := by
  unfold State.writePair; split <;> simp
@[simp] theorem State.writePair_emb (s : State) (rd rh : Gpr) (l h : Word) : (s.writePair rd rh l h).emb = s.emb := by
  unfold State.writePair; split <;> simp
@[simp] theorem State.writePair_hostReplies (s : State) (rd rh : Gpr) (l h : Word) : (s.writePair rd rh l h).hostReplies = s.hostReplies := by
  unfold State.writePair; split <;> simp

/-- The shift-down, register by register (60_exceptions.md R507). -/
theorem State.shiftDown_gpr (s : State) :
    s.shiftDown.gpr =
      ((((s.gpr.set (4 : Gpr) s.gpr[(5 : Gpr)]).set (5 : Gpr) s.gpr[(6 : Gpr)]).set (6 : Gpr)
        s.gpr[(7 : Gpr)]).set (7 : Gpr) s.gpr[(8 : Gpr)]).set (8 : Gpr) s.gpr[(9 : Gpr)] := rfl

/-- Reading the register just written. -/
@[simp] theorem State.readGpr_writeGpr_self (s : State) (r : Gpr) (v : Word) :
    (s.writeGpr r v).readGpr r = v := by
  simp

/-- Reading another register. -/
theorem State.readGpr_writeGpr_ne (s : State) (r q : Gpr) (v : Word) (h : q ≠ r) :
    (s.writeGpr r v).readGpr q = s.readGpr q := by
  have h' : (r : Nat) ≠ q := fun e => h (Fin.ext e.symm)
  simp [Vector.getElem_set_ne, h']

/-- A register that an update leaves, in the vector. -/
theorem gpr_set_ne (g : Vector Word 32) (r q : Gpr) (v : Word) (h : q ≠ r) : (g.set r v)[q] = g[q] := by
  have h' : (r : Nat) ≠ q := fun e => h (Fin.ext e.symm)
  simp [Vector.getElem_set_ne, h']

/-- A slot that an update leaves, in the vector. -/
theorem fpr_set_ne (g : Vector (Marked Word) 32) (r q : Fpr) (v : Marked Word) (h : q ≠ r) :
    (g.set r v)[q] = g[q] := by
  have h' : (r : Nat) ≠ q := fun e => h (Fin.ext e.symm)
  simp [Vector.getElem_set_ne, h']

end Sys2Proof.Machine
end

