-- ==== Sys2Proof/Laws/Memory.lean ====
section
/-! SUPPORT. The laws of memory and of the set of stored addresses: what a read gives after a write, and
that every operation keeps the canonical form. -/

namespace Sys2Proof.Machine

/-! ## One byte -/

/-- Below its lowest listed address a memory reads as the unlisted byte. -/
theorem Memory.read_below (m : Memory) (a : Nat) (h : ∀ c ∈ m, a < c.1) :
    m.read a = Config.unlistedByte := by
  induction m with
  | nil => rfl
  | cons c m ih =>
    have h1 : a < c.1 := h c (by simp)
    have h2 : ¬ a = c.1 := by omega
    simp only [Memory.read, h2, if_false]
    exact ih fun d hd => h d (by simp [hd])

/-- A read of another address is not changed by a write. -/
theorem Memory.read_write_ne (m : Memory) (a c : Nat) (v : Byte) (h : c ≠ a) :
    (m.write a v).read c = m.read c := by
  induction m with
  | nil => simp only [Memory.write]; split <;> simp [Memory.read, h]
  | cons d m ih =>
    obtain ⟨b, w⟩ := d
    simp only [Memory.write]
    split_ifs <;> simp_all [Memory.read]

/-- A read after a write to the same address gives the byte written. -/
theorem Memory.read_write_self (m : Memory) (a : Nat) (v : Byte) (h : m.wf) : (m.write a v).read a = v := by
  obtain ⟨hp, -⟩ := h
  induction m with
  | nil => simp only [Memory.write]; split <;> simp_all [Memory.read]
  | cons d m ih =>
    obtain ⟨b, w⟩ := d
    rw [List.pairwise_cons] at hp
    have hb : ∀ c ∈ m, b < c.1 := fun c hc => hp.1 c hc
    simp only [Memory.write]
    split_ifs with h1 h2 h3 h4
    · subst h2
      exact Memory.read_below _ _ (by
        intro c hc
        rcases List.mem_cons.1 hc with rfl | hc
        · exact h1
        · exact h1.trans (hb c hc))
    · simp [Memory.read]
    · subst h3 h4
      exact Memory.read_below _ _ hb
    · simp [Memory.read]
    · simp only [Memory.read, h3, if_false]
      exact ih hp.2

/-- An address listed after a write was listed before or is the one written, with its byte. -/
theorem Memory.mem_write (m : Memory) (a : Nat) (v : Byte) (c : Host.Cell) (h : c ∈ m.write a v) :
    c ∈ m ∨ (c = (a, v) ∧ v ≠ Config.unlistedByte) := by
  induction m with
  | nil =>
    simp only [Memory.write] at h
    split at h <;> simp_all
  | cons d m ih =>
    obtain ⟨b, w⟩ := d
    simp only [Memory.write] at h
    split_ifs at h <;> simp_all <;> tauto

/-- A write keeps the canonical form. -/
theorem Memory.write_wf (m : Memory) (a : Nat) (v : Byte) (h : m.wf) (ha : a < 2 ^ 32) :
    (m.write a v).wf := by
  obtain ⟨hp, hb⟩ := h
  refine ⟨?_, ?_⟩
  · induction m with
    | nil => simp only [Memory.write]; split <;> simp
    | cons d m ih =>
      obtain ⟨b, w⟩ := d
      have hp' := List.pairwise_cons.1 hp
      have hbd : ∀ c ∈ m, b < c.1 := fun c hc => hp'.1 c hc
      simp only [Memory.write]
      split_ifs with h1 h2 h3 h4
      · exact hp
      · refine List.pairwise_cons.2 ⟨?_, hp⟩
        intro c hc
        rcases List.mem_cons.1 hc with rfl | hc
        · exact h1
        · exact h1.trans (hbd c hc)
      · exact hp'.2
      · exact List.pairwise_cons.2 ⟨by subst h3; exact hbd, hp'.2⟩
      · refine List.pairwise_cons.2 ⟨?_, ih hp'.2 fun c hc => hb c (by simp [hc])⟩
        intro c hc
        rcases Memory.mem_write m a v c hc with hc | ⟨rfl, -⟩
        · exact hbd c hc
        · show b < a
          omega
  · intro c hc
    rcases Memory.mem_write m a v c hc with hc | ⟨rfl, hv⟩
    · exact hb c hc
    · exact ⟨ha, hv⟩

/-- Memories in canonical form that read alike are equal. -/
theorem Memory.ext_of_read (m n : Memory) (hm : m.wf) (hn : n.wf) (h : ∀ a, m.read a = n.read a) :
    m = n := by
  induction m generalizing n with
  | nil =>
    cases n with
    | nil => rfl
    | cons d n =>
      obtain ⟨b, w⟩ := d
      have := h b
      simp only [Memory.read, if_true] at this
      exact absurd this.symm (hn.2 (b, w) (by simp)).2
  | cons c m ih =>
    obtain ⟨a, v⟩ := c
    have hm1 := List.pairwise_cons.1 hm.1
    cases n with
    | nil =>
      have := h a
      simp only [Memory.read, if_true] at this
      exact absurd this (hm.2 (a, v) (by simp)).2
    | cons d n =>
      obtain ⟨b, w⟩ := d
      have hn1 := List.pairwise_cons.1 hn.1
      have hab : a = b := by
        rcases Nat.lt_trichotomy a b with hlt | heq | hlt
        · exfalso
          have h1 := h a
          simp only [Memory.read, if_true] at h1
          rw [if_neg (by omega : ¬ a = b), Memory.read_below n a
            (fun c hc => hlt.trans (hn1.1 c hc))] at h1
          exact (hm.2 (a, v) (by simp)).2 h1
        · exact heq
        · exfalso
          have h1 := h b
          simp only [Memory.read, if_true] at h1
          rw [if_neg (by omega : ¬ b = a), Memory.read_below m b
            (fun c hc => hlt.trans (hm1.1 c hc))] at h1
          exact (hn.2 (b, w) (by simp)).2 h1.symm
      subst hab
      have hvw : v = w := by simpa [Memory.read] using h a
      subst hvw
      congr 1
      refine ih n ⟨hm1.2, fun c hc => hm.2 c (by simp [hc])⟩ ⟨hn1.2, fun c hc => hn.2 c (by simp [hc])⟩ ?_
      intro x
      by_cases hx : x = a
      · subst hx
        rw [Memory.read_below m x fun c hc => hm1.1 c hc, Memory.read_below n x fun c hc => hn1.1 c hc]
      · have := h x
        simpa [Memory.read, hx] using this

/-! ## Several bytes -/

/-- Writing bytes keeps the canonical form. -/
theorem Memory.writeBytes_wf (m : Memory) (a : Word) (l : List Byte) (h : m.wf) : (m.writeBytes a l).wf := by
  induction l generalizing m a with
  | nil => exact h
  | cons v l ih => exact ih _ _ (Memory.write_wf m a.toNat v h a.isLt)

/-- What a byte reads as after a write of bytes from `a` up. -/
theorem Memory.read_writeBytes (m : Memory) (a c : Word) (l : List Byte) (h : m.wf)
    (hl : l.length ≤ 2 ^ 32) :
    (m.writeBytes a l).read c.toNat =
      if h : (c - a).toNat < l.length then l[(c - a).toNat] else m.read c.toNat := by
  induction l generalizing m a with
  | nil => simp [Memory.writeBytes]
  | cons v l ih =>
    simp only [Memory.writeBytes]
    rw [ih _ _ (Memory.write_wf m a.toNat v h a.isLt) (by simp at hl; omega)]
    simp only [List.length_cons] at hl ⊢
    by_cases hca : c = a
    · subst hca
      have h1 : (c - (c + 1#32)).toNat = 2 ^ 32 - 1 := by
        have : c - (c + 1#32) = 0xFFFFFFFF#32 := by
          bv_omega
        rw [this]; rfl
      have h2 : ¬ (2 ^ 32 - 1 : Nat) < l.length := by omega
      simp only [h1, h2, dite_false]
      simp [Memory.read_write_self m _ v h]
    · have hne : c.toNat ≠ a.toNat := fun e => hca (BitVec.eq_of_toNat_eq e)
      have h1 : (c - a).toNat = (c - (a + 1#32)).toNat + 1 := by bv_omega
      simp only [h1, Nat.add_lt_add_iff_right, List.getElem_cons_succ, Memory.read_write_ne _ _ _ _ hne]

/-! ## The set of stored addresses -/

/-- The members after an insertion. -/
theorem AddrSet.mem_insert (l : AddrSet) (a n : Nat) : n ∈ l.insert a ↔ n = a ∨ n ∈ l := by
  induction l with
  | nil => simp [AddrSet.insert]
  | cons b l ih =>
    simp only [AddrSet.insert]
    split_ifs <;> simp_all
    tauto

/-- An insertion keeps the canonical form. -/
theorem AddrSet.insert_wf (l : AddrSet) (a : Nat) (h : l.wf) (ha : a < 2 ^ 32) : AddrSet.wf (l.insert a) := by
  obtain ⟨hp, hb⟩ := h
  refine ⟨?_, ?_⟩
  · induction l with
    | nil => simp [AddrSet.insert]
    | cons b l ih =>
      have hp' := List.pairwise_cons.1 hp
      simp only [AddrSet.insert]
      split_ifs with h1 h2
      · refine List.pairwise_cons.2 ⟨?_, hp⟩
        intro c hc
        rcases List.mem_cons.1 hc with rfl | hc
        · exact h1
        · exact h1.trans (hp'.1 c hc)
      · exact hp
      · refine List.pairwise_cons.2 ⟨?_, ih hp'.2 fun n hn => hb n (by simp [hn])⟩
        intro c hc
        rcases (AddrSet.mem_insert l a c).1 hc with rfl | hc
        · omega
        · exact hp'.1 c hc
  · intro n hn
    rcases (AddrSet.mem_insert l a n).1 hn with rfl | hn
    · exact ha
    · exact hb n hn

/-- Adding a run of addresses keeps the canonical form. -/
theorem AddrSet.insertRun_wf (l : AddrSet) (a : Word) (k : Nat) (h : l.wf) :
    AddrSet.wf (l.insertRun a k) := by
  induction k generalizing l a with
  | zero => exact h
  | succ k ih => exact ih _ _ (AddrSet.insert_wf l a.toNat h a.isLt)

/-- The members after adding the `k` addresses from `a` up. -/
theorem AddrSet.mem_insertRun (l : AddrSet) (a : Word) (k n : Nat) :
    n ∈ l.insertRun a k ↔ n ∈ l ∨ ∃ j < k, n = (a + BitVec.ofNat 32 j).toNat := by
  induction k generalizing l a with
  | zero => simp [AddrSet.insertRun]
  | succ k ih =>
    simp only [AddrSet.insertRun, ih, AddrSet.mem_insert]
    constructor
    · rintro ((rfl | h) | ⟨j, hj, rfl⟩)
      · exact .inr ⟨0, by omega, by simp⟩
      · exact .inl h
      · exact .inr ⟨j + 1, by omega, by rw [BitVec.add_assoc, ← BitVec.ofNat_add, Nat.add_comm]⟩
    · rintro (h | ⟨j, hj, rfl⟩)
      · exact .inl (.inr h)
      · cases j with
        | zero => exact .inl (.inl (by simp))
        | succ j =>
          exact .inr ⟨j, by omega, by rw [BitVec.add_assoc, ← BitVec.ofNat_add, Nat.add_comm 1 j]⟩

/-- What a store leaves of the set: the addresses it already held. -/
theorem AddrSet.mem_insertRun_of_mem (l : AddrSet) (a : Word) (k n : Nat) (h : n ∈ l) :
    n ∈ l.insertRun a k := (AddrSet.mem_insertRun l a k n).2 (.inl h)

/-! ## Through the state -/

/-- A byte of memory after a store of bytes. -/
theorem State.byteAt_putBytes (s : State) (a c : Word) (l : List Byte) (h : s.mem.wf)
    (hl : l.length ≤ 2 ^ 32) :
    (s.putBytes a l).byteAt c =
      if h : (c - a).toNat < l.length then l[(c - a).toNat] else s.byteAt c :=
  Memory.read_writeBytes s.mem a c l h hl

/-- The four bytes of a word in memory order (20_memory.md R103). -/
theorem bytesOfWord_length (w : Word) : (bytesOfWord w).length = 4 := rfl

/-- The two bytes of a half in memory order (20_memory.md R103). -/
theorem bytesOfHalf_length (w : Half) : (bytesOfHalf w).length = 2 := rfl

end Sys2Proof.Machine
end

