-- ==== Sys2Proof/Laws/Ops.lean ====
section
/-! SUPPORT. One lemma for each shared operation: when it answers, and what. -/

namespace Sys2Proof.Machine

/-! ## How an instruction ends -/

/-- A transfer to a next pc that is not 0 completes. -/
@[simp] theorem transfer_ok (i : Instr) (s s' : State) (p : Word) (h : p ≠ 0#32) :
    transfer i s (.ok (s', p)) = .next { s' with pc := p } := by
  simp [transfer, h]

/-- A next pc of 0 is the fault UndefinedJumpTarget (60_exceptions.md R484). -/
@[simp] theorem transfer_zero (i : Instr) (s s' : State) :
    transfer i s (.ok (s', 0#32)) = .next (s.halt .undefinedJumpTarget (some (encode i))) := by
  simp [transfer, raise]

/-- A trap is the halt with its record (60_exceptions.md R480). -/
@[simp] theorem transfer_trap (i : Instr) (s : State) (t : Trap) :
    transfer i s (.error (.trap t)) = .next (s.halt t (some (encode i))) := rfl

/-- A request that is not admitted leaves the run stuck (60_exceptions.md R496). -/
@[simp] theorem transfer_stuck (i : Instr) (s : State) (a : Word) :
    transfer i s (.error (.stuck a)) = .fault (.stuckAccess a) := rfl

/-- Everything a transfer that answers a next state can have done. -/
theorem transfer_next {i : Instr} {s t : State} {a : Attempt (State × Word)}
    (h : transfer i s a = .next t) :
    (∃ tr, t = s.halt tr (some (encode i))) ∨
      ∃ s' p, a = .ok (s', p) ∧ p ≠ 0#32 ∧ t = { s' with pc := p } := by
  rcases a with (tr | a) | ⟨s', p⟩
  · exact .inl ⟨tr, by simpa using h.symm⟩
  · simp at h
  · by_cases hp : p = 0#32
    · subst hp
      exact .inl ⟨_, by simpa using h.symm⟩
    · rw [transfer_ok i s s' p hp] at h
      exact .inr ⟨s', p, rfl, hp, by simpa using h.symm⟩

/-- An instruction that does not transfer control completes at npc. -/
@[simp] theorem complete_ok (i : Instr) (s s' : State) (h : s.pc + 4#32 ≠ 0#32) :
    complete i s (.ok s') = .next { s' with pc := s.pc + 4#32 } :=
  transfer_ok i s s' _ h

/-- The sequential advance to 0 is a fault too (41_control_flow.md R260). -/
theorem complete_wrap (i : Instr) (s s' : State) (h : s.pc + 4#32 = 0#32) :
    complete i s (.ok s') = .next (s.halt .undefinedJumpTarget (some (encode i))) := by
  have h' : s.npc = 0#32 := h
  simp [complete, h']

/-- A trap is the halt with its record (60_exceptions.md R480). -/
@[simp] theorem complete_trap (i : Instr) (s : State) (t : Trap) :
    complete i s (.error (.trap t)) = .next (s.halt t (some (encode i))) := rfl

/-- A request that is not admitted leaves the run stuck (60_exceptions.md R496). -/
@[simp] theorem complete_stuck (i : Instr) (s : State) (a : Word) :
    complete i s (.error (.stuck a)) = .fault (.stuckAccess a) := rfl

/-- Everything an instruction that does not transfer control can have done. -/
theorem complete_next {i : Instr} {s t : State} {a : Attempt State} (h : complete i s a = .next t) :
    (∃ tr, t = s.halt tr (some (encode i))) ∨
      ∃ s', a = .ok s' ∧ s.pc + 4#32 ≠ 0#32 ∧ t = { s' with pc := s.pc + 4#32 } := by
  rcases a with e | s'
  · rcases transfer_next (a := .error e) h with h | ⟨_, _, h, -⟩
    · exact .inl h
    · cases h
  · rcases transfer_next (a := .ok (s', s.npc)) h with h | ⟨_, _, hs, hp, ht⟩
    · exact .inl h
    · cases hs
      exact .inr ⟨s', rfl, hp, ht⟩

/-! ## Sequencing attempts -/

/-- A sequence of attempts gives a value when each of its parts does. -/
theorem Attempt.bind_eq_ok {α β : Type} (a : Attempt α) (f : α → Attempt β) (b : β) :
    (a >>= f) = .ok b ↔ ∃ v, a = .ok v ∧ f v = .ok b := by
  cases a <;> simp [bind, Except.bind]

/-- A value goes on to the next attempt. -/
@[simp] theorem Attempt.ok_bind {α β : Type} (v : α) (f : α → Attempt β) :
    ((Except.ok v : Attempt α) >>= f) = f v := rfl

/-- A stop ends the sequence. -/
@[simp] theorem Attempt.error_bind {α β : Type} (e : Stop) (f : α → Attempt β) :
    ((Except.error e : Attempt α) >>= f) = .error e := rfl

/-! ## Marked registers and slots -/

/-- A read of a written register. -/
theorem Marked.read_written {α : Type} (m : Marked α) (w : MarkedReg) (h : m.written = true) :
    m.read w = .ok m.val := by
  simp [Marked.read, h]

/-- A read of an unwritten register (10_state.md R58). -/
theorem Marked.read_unwritten {α : Type} (m : Marked α) (w : MarkedReg) (h : m.written = false) :
    m.read w = .error (.trap (.unwrittenState w)) := by
  simp [Marked.read, h]

/-- A read that gives a value was of a written register. -/
theorem Marked.read_eq_ok {α : Type} (m : Marked α) (w : MarkedReg) (v : α) :
    m.read w = .ok v ↔ m.written = true ∧ v = m.val := by
  unfold Marked.read
  split_ifs with h <;> simp [h, eq_comm]

/-- A written slot. -/
theorem State.readS_written (s : State) (j : Fpr) (h : s.fpr[j].written = true) :
    s.readS j = .ok s.fpr[j].val := Marked.read_written _ _ h

/-- A double with both slots written. -/
theorem State.readD_written (s : State) (i : Fpr) (h : s.fpr[i].written = true)
    (h' : s.fpr[i + 1].written = true) :
    s.readD i = .ok (s.fpr[i + 1].val ++ s.fpr[i].val) := by
  unfold State.readD
  rw [State.readS_written s i h, State.readS_written s (i + 1) h']
  rfl

/-- The written condition code. -/
theorem State.readCc_written (s : State) (h : s.cc.written = true) : s.readCc = .ok s.cc.val :=
  Marked.read_written _ _ h

/-- An index other than 31 is a double index. -/
theorem checkDouble_of_ne (i : Fpr) (h : i ≠ 31) : checkDouble i = .ok () := by
  simp [checkDouble, h]

/-- The index 31 is not (60_exceptions.md R490). -/
theorem checkDouble_31 : checkDouble 31 = .error (.trap (.doubleRegisterOutOfRange 31)) := rfl

/-! ## Requests to memory -/

/-- An admitted request. -/
theorem State.checkAdmitted_ok (s : State) (a : Word) (n : Nat) (h : s.admitsRun a n = true) :
    s.checkAdmitted a n = .ok () := by
  simp [State.checkAdmitted, h]

/-- An aligned address. -/
theorem checkAligned_ok (a : Word) (n : Nat) (h : a.toNat % n = 0) : checkAligned a n = .ok () := by
  simp [checkAligned, h]

/-- A misaligned address (60_exceptions.md R487). -/
theorem checkAligned_error (a : Word) (n : Nat) (h : a.toNat % n ≠ 0) :
    checkAligned a n = .error (.trap (.misalignedAccess a)) := by
  simp [checkAligned, h]

/-- A byte load. -/
theorem State.loadByte_ok (s : State) (a : Word) (h : s.admitsRun a 1 = true) :
    s.loadByte a = .ok (s.byteAt a) := by
  simp [State.loadByte, State.checkAdmitted_ok, h, pure, Except.pure]

/-- A half load. -/
theorem State.loadHalf_ok (s : State) (a : Word) (h : s.admitsRun a 2 = true) :
    s.loadHalf a = .ok (s.halfAt a) := by
  simp [State.loadHalf, State.checkAdmitted_ok, h, pure, Except.pure]

/-- A word load. -/
theorem State.loadWord_ok (s : State) (a : Word) (h : s.admitsRun a 4 = true) :
    s.loadWord a = .ok (s.wordAt a) := by
  simp [State.loadWord, State.checkAdmitted_ok, h, pure, Except.pure]

/-- A byte store. -/
theorem State.storeByte_ok (s : State) (a : Word) (v : Byte) (h : s.admitsRun a 1 = true) :
    s.storeByte a v = .ok (s.putBytes a [v]) := by
  simp [State.storeByte, State.checkAdmitted_ok, h, pure, Except.pure]

/-- A half store. -/
theorem State.storeHalf_ok (s : State) (a : Word) (v : Half) (h : s.admitsRun a 2 = true) :
    s.storeHalf a v = .ok (s.putBytes a (bytesOfHalf v)) := by
  simp [State.storeHalf, State.checkAdmitted_ok, h, pure, Except.pure]

/-- A word store. -/
theorem State.storeWord_ok (s : State) (a : Word) (v : Word) (h : s.admitsRun a 4 = true) :
    s.storeWord a v = .ok (s.putBytes a (bytesOfWord v)) := by
  simp [State.storeWord, State.checkAdmitted_ok, h, pure, Except.pure]

/-- Which addresses an admitted run covers. -/
theorem State.admitsRun_iff (s : State) (a : Word) (n : Nat) :
    s.admitsRun a n = true ↔ ∀ j < n, s.admits (a + BitVec.ofNat 32 j) = true := by
  induction n generalizing a with
  | zero => simp [State.admitsRun]
  | succ n ih =>
    simp only [State.admitsRun, Bool.and_eq_true, ih]
    constructor
    · rintro ⟨h0, h⟩ j hj
      cases j with
      | zero => simpa using h0
      | succ j =>
        have := h j (by omega)
        rwa [BitVec.add_assoc, ← BitVec.ofNat_add, Nat.add_comm 1 j] at this
    · intro h
      refine ⟨by simpa using h 0 (by omega), fun j hj => ?_⟩
      have := h (j + 1) (by omega)
      rwa [Nat.add_comm j 1, BitVec.ofNat_add, ← BitVec.add_assoc] at this

/-! ## The host call -/

/-- A host write keeps every field but memory. -/
theorem State.hostWrites_eq (s : State) (l : List (Word × Byte)) :
    s.hostWrites l = { s with mem := (s.hostWrites l).mem } := by
  induction l generalizing s with
  | nil => rfl
  | cons c l ih =>
    obtain ⟨a, v⟩ := c
    simp only [State.hostWrites]
    split_ifs
    · rw [ih]
    · exact ih s

/-- A host write keeps the canonical form of memory. -/
theorem State.hostWrites_wf (s : State) (l : List (Word × Byte)) (h : s.mem.wf) :
    (s.hostWrites l).mem.wf := by
  induction l generalizing s with
  | nil => exact h
  | cons c l ih =>
    obtain ⟨a, v⟩ := c
    simp only [State.hostWrites]
    split_ifs
    · exact ih _ (Memory.write_wf s.mem a.toNat v h a.isLt)
    · exact ih s h

/-- A byte the host does not write, or that the port does not admit, stays. -/
theorem State.byteAt_hostWrites_ne (s : State) (l : List (Word × Byte)) (a : Word)
    (h : a ∉ l.map Prod.fst ∨ s.admits a = false) : (s.hostWrites l).byteAt a = s.byteAt a := by
  induction l generalizing s with
  | nil => rfl
  | cons c l ih =>
    obtain ⟨b, v⟩ := c
    simp only [State.hostWrites]
    have hl : a ∉ l.map Prod.fst ∨ s.admits a = false := by
      rcases h with h | h
      · exact .inl fun hm => h (by simp [List.mem_map] at hm ⊢; exact .inr hm)
      · exact .inr h
    split_ifs with hb
    · refine (ih { s with mem := s.mem.write b.toNat v } hl).trans ?_
      have hab : a ≠ b := by
        rintro rfl
        rcases h with h | h
        · exact h (by simp)
        · rw [h] at hb; cases hb
      exact Memory.read_write_ne _ _ _ _ fun e => hab (BitVec.eq_of_toNat_eq e)
    · exact ih s hl

/-- An admitted byte the host writes holds the last value written. -/
theorem State.byteAt_hostWrites (s : State) (before after : List (Word × Byte)) (a : Word) (v : Byte)
    (hm : s.mem.wf) (ha : s.admits a = true) (h : a ∉ after.map Prod.fst) :
    (s.hostWrites (before ++ (a, v) :: after)).byteAt a = v := by
  induction before generalizing s with
  | nil =>
    simp only [List.nil_append, State.hostWrites, ha, if_true]
    rw [State.byteAt_hostWrites_ne _ _ _ (.inl h)]
    exact Memory.read_write_self _ _ _ hm
  | cons c l ih =>
    obtain ⟨b, w⟩ := c
    simp only [List.cons_append, State.hostWrites]
    split_ifs
    · exact ih { s with mem := s.mem.write b.toNat w } (Memory.write_wf _ _ _ hm b.isLt) ha
    · exact ih s hm ha

/-- Taking a reply touches the queue and the counter alone. -/
theorem State.takeReply_eq (s : State) :
    s.takeReply.2 =
      { s with hostReplies := s.takeReply.2.hostReplies, draws := s.takeReply.2.draws } := by
  unfold State.takeReply
  split <;> rfl

/-- Everything the host's turn can do. -/
theorem hostTurn_next (word : Word) (s : State) :
    ∃ t, hostTurn word s = .next t ∧
      ((t.status = s.status ∧ t.control = .resume word) ∨ (∃ n, t.status = .exited n) ∨
        t.status = .halted .hostFatal s.pc (some word)) ∧
      t.pc = s.pc ∧ t.hi = s.hi ∧ t.lo = s.lo ∧ t.cc = s.cc ∧ t.fpr = s.fpr ∧ t.ldireg = s.ldireg ∧
      t.ijmpreg = s.ijmpreg ∧ t.stored = s.stored ∧ t.emb = s.emb ∧ (s.mem.wf → t.mem.wf) := by
  have hr := State.takeReply_eq s.shiftDown
  unfold hostTurn
  dsimp only
  split_ifs
  · exact ⟨_, rfl, .inl ⟨rfl, rfl⟩, rfl, rfl, rfl, rfl, rfl, rfl, rfl, rfl, rfl, id⟩
  · exact ⟨_, rfl, .inr (.inl ⟨_, rfl⟩), rfl, rfl, rfl, rfl, rfl, rfl, rfl, rfl, rfl, id⟩
  · split <;> rename_i r writes _
    all_goals
      refine ⟨_, rfl, ?_, ?_, ?_, ?_, ?_, ?_, ?_, ?_, ?_, ?_, ?_⟩
      rotate_right
      · intro hm
        exact State.hostWrites_wf _ _ (by rw [hr]; exact hm)
      all_goals
        rw [State.hostWrites_eq, hr]
        simp

/-- The resume at npc. -/
@[simp] theorem resumeTurn_ok (word : Word) (s : State) (h : s.pc + 4#32 ≠ 0#32) :
    resumeTurn word s = .next { s with pc := s.pc + 4#32, control := .block } := by
  have h' : s.npc ≠ 0#32 := h
  simp [resumeTurn, h']
  rfl

/-- The resume at 0 (41_control_flow.md R260). -/
theorem resumeTurn_wrap (word : Word) (s : State) (h : s.pc + 4#32 = 0#32) :
    resumeTurn word s = .next (s.halt .undefinedJumpTarget (some word)) := by
  have h' : s.npc = 0#32 := h
  simp [resumeTurn, h']

/-! ## The loader -/

/-- Everything the loader's bootstrap can do (70_reset_and_hazards.md R537). -/
theorem Loader.bootstrap_eq_some (l : Loader) (layout : Nat → BootFrame) (ramTop : Nat) (s : State)
    (argv : List (List Byte)) (r : Loader × State) :
    l.bootstrap layout ramTop s argv = some r ↔
      LaidFrame.follows ⟨layout l.counter, argv.length⟩ ramTop l.laid = true ∧
        r = (⟨⟨layout l.counter, argv.length⟩ :: l.laid⟩, s.bootstrap (layout l.counter) argv) := by
  unfold Loader.bootstrap
  dsimp only
  split_ifs with h <;> simp [h, eq_comm]

/-- Regions apart have no address in common. -/
theorem Region.not_contains_of_apart (r q : Region) (a : Nat) (h : r.apart q = true) :
    ¬ (r.contains a = true ∧ q.contains a = true) := by
  simp only [Region.apart, Region.contains, Bool.or_eq_true, Bool.and_eq_true, decide_eq_true_eq] at *
  omega

/-! ## The step -/

/-- A machine that has ended has no step. -/
theorem step_ended (s : State) (h : s.status ≠ .running) : step s = .fault .notRunning := by
  unfold step
  cases hs : s.status <;> simp_all

/-- The block's step. -/
theorem step_block (s : State) (h : s.status = .running) (hc : s.control = .block) :
    step s = blockStep s := by
  simp [step, h, hc]

/-- The host's turn. -/
theorem step_host (s : State) (word : Word) (h : s.status = .running) (hc : s.control = .host word) :
    step s = hostTurn word s := by
  simp [step, h, hc]

/-- The resume. -/
theorem step_resume (s : State) (word : Word) (h : s.status = .running)
    (hc : s.control = .resume word) : step s = resumeTurn word s := by
  simp [step, h, hc]

/-- An instruction at a word that is fetched and decodes. -/
theorem blockStep_ok (s : State) (w : Word) (i : Instr) (h : s.fetch = .ok w)
    (hd : decode w = .ok i) : blockStep s = exec i s := by
  simp [blockStep, h, hd]

end Sys2Proof.Machine
end

