-- ==== Sys2Proof/Laws/PerInstr.lean ====
section
/-! SUPPORT. One lemma for each constructor: the word of a well-formed instruction matches a row of the
opcode table, and that row reads the instruction back. -/

namespace Sys2Proof.Laws.Matches

-- One theorem at a time: 134 of them at once ask for more threads than the checker allows.
set_option Elab.async false

/-- Some row of the table matches the word of the instruction and gives the instruction back. -/
def Statement (i : Instr) : Prop :=
  i.WellFormed = true → ∃ row ∈ opcodeTable, row.Matches (encode i) = true ∧ row.build (encode i) = i

/-- The row in place `k` of the table shows the statement. -/
theorem of_row (i : Instr) (k : Nat) (row : Row) (hk : opcodeTable[k]? = some row)
    (hm : encode i &&& row.mask = row.value) (hb : row.build (encode i) = i) : Statement i :=
  fun _ => ⟨row, List.mem_of_getElem? hk, by simp [Row.Matches, hm], hb⟩

theorem add (rd rs rt : Gpr) : Statement (.add rd rs rt) :=
  of_row _ 0 _ rfl (by rw [encode, formatR_and]; simp [and_63]; rfl)
    (by simp [encode, regAt, extract_formatR_a, extract_formatR_b, extract_formatR_c, reg])

theorem sub (rd rs rt : Gpr) : Statement (.sub rd rs rt) :=
  of_row _ 1 _ rfl (by rw [encode, formatR_and]; simp [and_63]; rfl)
    (by simp [encode, regAt, extract_formatR_a, extract_formatR_b, extract_formatR_c, reg])

theorem and (rd rs rt : Gpr) : Statement (.and rd rs rt) :=
  of_row _ 2 _ rfl (by rw [encode, formatR_and]; simp [and_63]; rfl)
    (by simp [encode, regAt, extract_formatR_a, extract_formatR_b, extract_formatR_c, reg])

theorem or (rd rs rt : Gpr) : Statement (.or rd rs rt) :=
  of_row _ 3 _ rfl (by rw [encode, formatR_and]; simp [and_63]; rfl)
    (by simp [encode, regAt, extract_formatR_a, extract_formatR_b, extract_formatR_c, reg])

theorem xor (rd rs rt : Gpr) : Statement (.xor rd rs rt) :=
  of_row _ 4 _ rfl (by rw [encode, formatR_and]; simp [and_63]; rfl)
    (by simp [encode, regAt, extract_formatR_a, extract_formatR_b, extract_formatR_c, reg])

theorem nor (rd rs rt : Gpr) : Statement (.nor rd rs rt) :=
  of_row _ 5 _ rfl (by rw [encode, formatR_and]; simp [and_63]; rfl)
    (by simp [encode, regAt, extract_formatR_a, extract_formatR_b, extract_formatR_c, reg])

theorem slt (rd rs rt : Gpr) : Statement (.slt rd rs rt) :=
  of_row _ 6 _ rfl (by rw [encode, formatR_and]; simp [and_63]; rfl)
    (by simp [encode, regAt, extract_formatR_a, extract_formatR_b, extract_formatR_c, reg])

theorem sltu (rd rs rt : Gpr) : Statement (.sltu rd rs rt) :=
  of_row _ 7 _ rfl (by rw [encode, formatR_and]; simp [and_63]; rfl)
    (by simp [encode, regAt, extract_formatR_a, extract_formatR_b, extract_formatR_c, reg])

theorem addi (rt rs : Gpr) (imm : BitVec 16) : Statement (.addi rt rs imm) :=
  of_row _ 8 _ rfl (by rw [encode, formatI_and]; simp [and_63]; rfl)
    (by simp [encode, regAt, extract_formatI_a, extract_formatI_b, extract_formatI_imm, reg])

theorem slti (rt rs : Gpr) (imm : BitVec 16) : Statement (.slti rt rs imm) :=
  of_row _ 9 _ rfl (by rw [encode, formatI_and]; simp [and_63]; rfl)
    (by simp [encode, regAt, extract_formatI_a, extract_formatI_b, extract_formatI_imm, reg])

theorem sltiu (rt rs : Gpr) (imm : BitVec 16) : Statement (.sltiu rt rs imm) :=
  of_row _ 10 _ rfl (by rw [encode, formatI_and]; simp [and_63]; rfl)
    (by simp [encode, regAt, extract_formatI_a, extract_formatI_b, extract_formatI_imm, reg])

theorem andi (rt rs : Gpr) (imm : BitVec 16) : Statement (.andi rt rs imm) :=
  of_row _ 11 _ rfl (by rw [encode, formatI_and]; simp [and_63]; rfl)
    (by simp [encode, regAt, extract_formatI_a, extract_formatI_b, extract_formatI_imm, reg])

theorem ori (rt rs : Gpr) (imm : BitVec 16) : Statement (.ori rt rs imm) :=
  of_row _ 12 _ rfl (by rw [encode, formatI_and]; simp [and_63]; rfl)
    (by simp [encode, regAt, extract_formatI_a, extract_formatI_b, extract_formatI_imm, reg])

theorem xori (rt rs : Gpr) (imm : BitVec 16) : Statement (.xori rt rs imm) :=
  of_row _ 13 _ rfl (by rw [encode, formatI_and]; simp [and_63]; rfl)
    (by simp [encode, regAt, extract_formatI_a, extract_formatI_b, extract_formatI_imm, reg])

theorem sll (rd rt : Gpr) (sa : Fin 32) : Statement (.sll rd rt sa) :=
  of_row _ 14 _ rfl (by rw [encode, formatR_and]; simp; rfl)
    (by simp [encode, regAt, extract_formatR_b, extract_formatR_c, extract_formatR_d, reg])

theorem srl (rd rt : Gpr) (sa : Fin 32) : Statement (.srl rd rt sa) :=
  of_row _ 15 _ rfl (by rw [encode, formatR_and]; simp [and_63]; rfl)
    (by simp [encode, regAt, extract_formatR_b, extract_formatR_c, extract_formatR_d, reg])

theorem sra (rd rt : Gpr) (sa : Fin 32) : Statement (.sra rd rt sa) :=
  of_row _ 16 _ rfl (by rw [encode, formatR_and]; simp [and_63]; rfl)
    (by simp [encode, regAt, extract_formatR_b, extract_formatR_c, extract_formatR_d, reg])

theorem sllv (rd rt rs : Gpr) : Statement (.sllv rd rt rs) :=
  of_row _ 17 _ rfl (by rw [encode, formatR_and]; simp [and_63]; rfl)
    (by simp [encode, regAt, extract_formatR_a, extract_formatR_b, extract_formatR_c, reg])

theorem srlv (rd rt rs : Gpr) : Statement (.srlv rd rt rs) :=
  of_row _ 18 _ rfl (by rw [encode, formatR_and]; simp [and_63]; rfl)
    (by simp [encode, regAt, extract_formatR_a, extract_formatR_b, extract_formatR_c, reg])

theorem srav (rd rt rs : Gpr) : Statement (.srav rd rt rs) :=
  of_row _ 19 _ rfl (by rw [encode, formatR_and]; simp [and_63]; rfl)
    (by simp [encode, regAt, extract_formatR_a, extract_formatR_b, extract_formatR_c, reg])

theorem ror (rd rt : Gpr) (sa : Fin 32) : Statement (.ror rd rt sa) :=
  of_row _ 20 _ rfl (by rw [encode, formatR_and]; simp [and_31, and_63]; rfl)
    (by simp [encode, regAt, extract_formatR_b, extract_formatR_c, extract_formatR_d, reg])

theorem rorr (rd rt rs : Gpr) : Statement (.rorr rd rt rs) :=
  of_row _ 21 _ rfl (by rw [encode, formatR_and]; simp [and_31, and_63]; rfl)
    (by simp [encode, regAt, extract_formatR_a, extract_formatR_b, extract_formatR_c, reg])

theorem mul (rd rh rs rt : Gpr) : Statement (.mul rd rh rs rt) :=
  of_row _ 22 _ rfl (by rw [encode, formatR_and]; simp [and_63]; rfl)
    (by simp [encode, regAt, extract_formatR_a, extract_formatR_b, extract_formatR_c, extract_formatR_d, reg])

theorem mulu (rd rh rs rt : Gpr) : Statement (.mulu rd rh rs rt) :=
  of_row _ 23 _ rfl (by rw [encode, formatR_and]; simp [and_63]; rfl)
    (by simp [encode, regAt, extract_formatR_a, extract_formatR_b, extract_formatR_c, extract_formatR_d, reg])

theorem div (rd rh rs rt : Gpr) : Statement (.div rd rh rs rt) :=
  of_row _ 24 _ rfl (by rw [encode, formatR_and]; simp [and_63]; rfl)
    (by simp [encode, regAt, extract_formatR_a, extract_formatR_b, extract_formatR_c, extract_formatR_d, reg])

theorem divu (rd rh rs rt : Gpr) : Statement (.divu rd rh rs rt) :=
  of_row _ 25 _ rfl (by rw [encode, formatR_and]; simp [and_63]; rfl)
    (by simp [encode, regAt, extract_formatR_a, extract_formatR_b, extract_formatR_c, extract_formatR_d, reg])

theorem clz (rd rs : Gpr) (ign : BitVec 5) : Statement (.clz rd rs ign) :=
  of_row _ 26 _ rfl (by rw [encode, formatR_and]; simp [and_63]; rfl)
    (by simp [encode, regAt, extract_formatR_a, extract_formatR_b, extract_formatR_c, reg])

theorem seb (rd rt : Gpr) : Statement (.seb rd rt) :=
  of_row _ 27 _ rfl (by rw [encode, formatR_and]; simp [and_31, and_63]; rfl)
    (by simp [encode, regAt, extract_formatR_b, extract_formatR_c, reg])

theorem seh (rd rt : Gpr) : Statement (.seh rd rt) :=
  of_row _ 28 _ rfl (by rw [encode, formatR_and]; simp [and_31, and_63]; rfl)
    (by simp [encode, regAt, extract_formatR_b, extract_formatR_c, reg])

theorem ext (rt rs : Gpr) (pos size : Nat) : Statement (.ext rt rs pos size) := by
  intro h
  refine of_row _ 29 _ rfl (by rw [encode, formatR_and]; simp [and_63]; rfl) ?_ h
  simp only [Instr.WellFormed, Bool.and_eq_true, decide_eq_true_eq] at h
  simp [encode, regAt, extract_formatR_a, extract_formatR_b, extract_formatR_c, extract_formatR_d, reg]
  omega

theorem movz (rd rs rt : Gpr) : Statement (.movz rd rs rt) :=
  of_row _ 30 _ rfl (by rw [encode, formatR_and]; simp [and_63]; rfl)
    (by simp [encode, regAt, extract_formatR_a, extract_formatR_b, extract_formatR_c, reg])

theorem movn (rd rs rt : Gpr) : Statement (.movn rd rs rt) :=
  of_row _ 31 _ rfl (by rw [encode, formatR_and]; simp [and_63]; rfl)
    (by simp [encode, regAt, extract_formatR_a, extract_formatR_b, extract_formatR_c, reg])

theorem movt (rd rs : Gpr) : Statement (.movt rd rs) :=
  of_row _ 32 _ rfl (by rw [encode, formatR_and]; simp [and_31, and_63]; rfl)
    (by simp [encode, regAt, extract_formatR_a, extract_formatR_c, reg])

theorem movf (rd rs : Gpr) : Statement (.movf rd rs) :=
  of_row _ 33 _ rfl (by rw [encode, formatR_and]; simp [and_63]; rfl)
    (by simp [encode, regAt, extract_formatR_a, extract_formatR_c, reg])

theorem jump (imm : BitVec 26) : Statement (.jump imm) :=
  of_row _ 34 _ rfl (by rw [encode, formatJ_and]; simp [and_63]; rfl)
    (by simp [encode, extract_formatJ_imm])

theorem call (imm : BitVec 26) : Statement (.call imm) :=
  of_row _ 35 _ rfl (by rw [encode, formatJ_and]; simp [and_63]; rfl)
    (by simp [encode, extract_formatJ_imm])

theorem jumpr (rs : Gpr) : Statement (.jumpr rs) :=
  of_row _ 36 _ rfl (by rw [encode, formatR_and]; simp [and_63]; rfl)
    (by simp [encode, regAt, extract_formatR_a, reg])

theorem callr (rs : Gpr) : Statement (.callr rs) :=
  of_row _ 37 _ rfl (by rw [encode, formatR_and]; simp [and_63]; rfl)
    (by simp [encode, regAt, extract_formatR_a, reg])

theorem jeq (rs rt : Gpr) (imm : BitVec 16) : Statement (.jeq rs rt imm) :=
  of_row _ 38 _ rfl (by rw [encode, formatI_and]; simp [and_63]; rfl)
    (by simp [encode, regAt, extract_formatI_a, extract_formatI_b, extract_formatI_imm, reg])

theorem jne (rs rt : Gpr) (imm : BitVec 16) : Statement (.jne rs rt imm) :=
  of_row _ 39 _ rfl (by rw [encode, formatI_and]; simp [and_63]; rfl)
    (by simp [encode, regAt, extract_formatI_a, extract_formatI_b, extract_formatI_imm, reg])

theorem jlez (rs : Gpr) (imm : BitVec 16) : Statement (.jlez rs imm) :=
  of_row _ 40 _ rfl (by rw [encode, formatI_and]; simp [and_63]; rfl)
    (by simp [encode, regAt, extract_formatI_a, extract_formatI_imm, reg])

theorem jgtz (rs : Gpr) (imm : BitVec 16) : Statement (.jgtz rs imm) :=
  of_row _ 41 _ rfl (by rw [encode, formatI_and]; simp [and_63]; rfl)
    (by simp [encode, regAt, extract_formatI_a, extract_formatI_imm, reg])

theorem jltz (rs : Gpr) (imm : BitVec 16) : Statement (.jltz rs imm) :=
  of_row _ 42 _ rfl (by rw [encode, formatI_and]; simp [and_63]; rfl)
    (by simp [encode, regAt, extract_formatI_a, extract_formatI_imm, reg])

theorem jgez (rs : Gpr) (imm : BitVec 16) : Statement (.jgez rs imm) :=
  of_row _ 43 _ rfl (by rw [encode, formatI_and]; simp [and_31, and_63]; rfl)
    (by simp [encode, regAt, extract_formatI_a, extract_formatI_imm, reg])

theorem bc1t (imm : BitVec 16) : Statement (.bc1t imm) :=
  of_row _ 44 _ rfl (by rw [encode, formatI_and]; simp [and_31, and_63]; rfl)
    (by simp [encode, extract_formatI_imm])

theorem bc1f (imm : BitVec 16) : Statement (.bc1f imm) :=
  of_row _ 45 _ rfl (by rw [encode, formatI_and]; simp [and_31, and_63]; rfl)
    (by simp [encode, extract_formatI_imm])

theorem rcall (imm : BitVec 16) : Statement (.rcall imm) :=
  of_row _ 46 _ rfl (by rw [encode, formatI_and]; simp [and_63]; rfl)
    (by simp [encode, extract_formatI_imm])

theorem ijmphi (imm : BitVec 20) : Statement (.ijmphi imm) :=
  of_row _ 47 _ rfl (by rw [encode, formatCIH_and]; simp [and_63]; rfl)
    (by simp [encode, extract_formatCIH_imm])

theorem ijmp (rs : Gpr) (imm : BitVec 12) : Statement (.ijmp rs imm) :=
  of_row _ 48 _ rfl (by rw [encode, formatCIJ_and]; simp [and_63]; rfl)
    (by simp [encode, regAt, extract_formatCIJ_a, extract_formatCIJ_imm, reg])

theorem ldi (rt : Gpr) (imm : BitVec 14) : Statement (.ldi rt imm) :=
  of_row _ 49 _ rfl (by rw [encode, formatCLI_and]; simp [and_63]; rfl)
    (by simp [encode, regAt, extract_formatCLI_b, extract_formatCLI_imm, reg])

theorem ldihi (imm : BitVec 18) : Statement (.ldihi imm) :=
  of_row _ 50 _ rfl (by rw [encode, formatCLH_and]; simp [and_63]; rfl)
    (by simp [encode, extract_formatCLH_imm])

theorem teq (rs rt : Gpr) (code : BitVec 10) : Statement (.teq rs rt code) :=
  of_row _ 51 _ rfl (by rw [encode, formatRT_and]; simp [and_63]; rfl)
    (by simp [encode, regAt, extract_formatRT_a, extract_formatRT_b, extract_formatRT_code, reg])

theorem brk (code : BitVec 20) : Statement (.brk code) :=
  of_row _ 52 _ rfl (by rw [encode, formatRS_and]; simp [and_63]; rfl)
    (by simp [encode, extract_formatRS_code])

theorem syscall (code : BitVec 20) : Statement (.syscall code) :=
  of_row _ 53 _ rfl (by rw [encode, formatRS_and]; simp [and_63]; rfl)
    (by simp [encode, extract_formatRS_code])

theorem addS (fd fs ft : Fpr) : Statement (.addS fd fs ft) :=
  of_row _ 54 _ rfl (by rw [encode, formatR_and]; simp [and_31, and_63]; rfl)
    (by simp [encode, regAt, extract_formatR_b, extract_formatR_c, extract_formatR_d, reg])

theorem addD (fd fs ft : Fpr) : Statement (.addD fd fs ft) :=
  of_row _ 55 _ rfl (by rw [encode, formatR_and]; simp [and_31, and_63]; rfl)
    (by simp [encode, regAt, extract_formatR_b, extract_formatR_c, extract_formatR_d, reg])

theorem subS (fd fs ft : Fpr) : Statement (.subS fd fs ft) :=
  of_row _ 56 _ rfl (by rw [encode, formatR_and]; simp [and_31, and_63]; rfl)
    (by simp [encode, regAt, extract_formatR_b, extract_formatR_c, extract_formatR_d, reg])

theorem subD (fd fs ft : Fpr) : Statement (.subD fd fs ft) :=
  of_row _ 57 _ rfl (by rw [encode, formatR_and]; simp [and_31, and_63]; rfl)
    (by simp [encode, regAt, extract_formatR_b, extract_formatR_c, extract_formatR_d, reg])

theorem mulS (fd fs ft : Fpr) : Statement (.mulS fd fs ft) :=
  of_row _ 58 _ rfl (by rw [encode, formatR_and]; simp [and_31, and_63]; rfl)
    (by simp [encode, regAt, extract_formatR_b, extract_formatR_c, extract_formatR_d, reg])

theorem mulD (fd fs ft : Fpr) : Statement (.mulD fd fs ft) :=
  of_row _ 59 _ rfl (by rw [encode, formatR_and]; simp [and_31, and_63]; rfl)
    (by simp [encode, regAt, extract_formatR_b, extract_formatR_c, extract_formatR_d, reg])

theorem divS (fd fs ft : Fpr) : Statement (.divS fd fs ft) :=
  of_row _ 60 _ rfl (by rw [encode, formatR_and]; simp [and_31, and_63]; rfl)
    (by simp [encode, regAt, extract_formatR_b, extract_formatR_c, extract_formatR_d, reg])

theorem divD (fd fs ft : Fpr) : Statement (.divD fd fs ft) :=
  of_row _ 61 _ rfl (by rw [encode, formatR_and]; simp [and_31, and_63]; rfl)
    (by simp [encode, regAt, extract_formatR_b, extract_formatR_c, extract_formatR_d, reg])

theorem sqrtS (fd fs : Fpr) : Statement (.sqrtS fd fs) :=
  of_row _ 62 _ rfl (by rw [encode, formatR_and]; simp [and_31, and_63]; rfl)
    (by simp [encode, regAt, extract_formatR_c, extract_formatR_d, reg])

theorem sqrtD (fd fs : Fpr) : Statement (.sqrtD fd fs) :=
  of_row _ 63 _ rfl (by rw [encode, formatR_and]; simp [and_31, and_63]; rfl)
    (by simp [encode, regAt, extract_formatR_c, extract_formatR_d, reg])

theorem absS (fd fs : Fpr) : Statement (.absS fd fs) :=
  of_row _ 64 _ rfl (by rw [encode, formatR_and]; simp [and_31, and_63]; rfl)
    (by simp [encode, regAt, extract_formatR_c, extract_formatR_d, reg])

theorem absD (fd fs : Fpr) : Statement (.absD fd fs) :=
  of_row _ 65 _ rfl (by rw [encode, formatR_and]; simp [and_31, and_63]; rfl)
    (by simp [encode, regAt, extract_formatR_c, extract_formatR_d, reg])

theorem negS (fd fs : Fpr) : Statement (.negS fd fs) :=
  of_row _ 66 _ rfl (by rw [encode, formatR_and]; simp [and_31, and_63]; rfl)
    (by simp [encode, regAt, extract_formatR_c, extract_formatR_d, reg])

theorem negD (fd fs : Fpr) : Statement (.negD fd fs) :=
  of_row _ 67 _ rfl (by rw [encode, formatR_and]; simp [and_31, and_63]; rfl)
    (by simp [encode, regAt, extract_formatR_c, extract_formatR_d, reg])

theorem movS (fd fs : Fpr) : Statement (.movS fd fs) :=
  of_row _ 68 _ rfl (by rw [encode, formatR_and]; simp [and_31, and_63]; rfl)
    (by simp [encode, regAt, extract_formatR_c, extract_formatR_d, reg])

theorem movD (fd fs : Fpr) : Statement (.movD fd fs) :=
  of_row _ 69 _ rfl (by rw [encode, formatR_and]; simp [and_31, and_63]; rfl)
    (by simp [encode, regAt, extract_formatR_c, extract_formatR_d, reg])

theorem maddS (fd fr fs ft : Fpr) : Statement (.maddS fd fr fs ft) :=
  of_row _ 70 _ rfl (by rw [encode, formatR_and]; simp [and_63]; rfl)
    (by simp [encode, regAt, extract_formatR_a, extract_formatR_b, extract_formatR_c, extract_formatR_d, reg])

theorem maddD (fd fr fs ft : Fpr) : Statement (.maddD fd fr fs ft) :=
  of_row _ 71 _ rfl (by rw [encode, formatR_and]; simp [and_63]; rfl)
    (by simp [encode, regAt, extract_formatR_a, extract_formatR_b, extract_formatR_c, extract_formatR_d, reg])

theorem msubS (fd fr fs ft : Fpr) : Statement (.msubS fd fr fs ft) :=
  of_row _ 72 _ rfl (by rw [encode, formatR_and]; simp [and_63]; rfl)
    (by simp [encode, regAt, extract_formatR_a, extract_formatR_b, extract_formatR_c, extract_formatR_d, reg])

theorem msubD (fd fr fs ft : Fpr) : Statement (.msubD fd fr fs ft) :=
  of_row _ 73 _ rfl (by rw [encode, formatR_and]; simp [and_63]; rfl)
    (by simp [encode, regAt, extract_formatR_a, extract_formatR_b, extract_formatR_c, extract_formatR_d, reg])

theorem cEqS (fs ft : Fpr) : Statement (.cEqS fs ft) :=
  of_row _ 74 _ rfl (by rw [encode, formatR_and]; simp [and_31, and_63]; rfl)
    (by simp [encode, regAt, extract_formatR_b, extract_formatR_c, reg])

theorem cEqD (fs ft : Fpr) : Statement (.cEqD fs ft) :=
  of_row _ 75 _ rfl (by rw [encode, formatR_and]; simp [and_31, and_63]; rfl)
    (by simp [encode, regAt, extract_formatR_b, extract_formatR_c, reg])

theorem cOleS (fs ft : Fpr) : Statement (.cOleS fs ft) :=
  of_row _ 76 _ rfl (by rw [encode, formatR_and]; simp [and_31, and_63]; rfl)
    (by simp [encode, regAt, extract_formatR_b, extract_formatR_c, reg])

theorem cOleD (fs ft : Fpr) : Statement (.cOleD fs ft) :=
  of_row _ 77 _ rfl (by rw [encode, formatR_and]; simp [and_31, and_63]; rfl)
    (by simp [encode, regAt, extract_formatR_b, extract_formatR_c, reg])

theorem cOltS (fs ft : Fpr) : Statement (.cOltS fs ft) :=
  of_row _ 78 _ rfl (by rw [encode, formatR_and]; simp [and_31, and_63]; rfl)
    (by simp [encode, regAt, extract_formatR_b, extract_formatR_c, reg])

theorem cOltD (fs ft : Fpr) : Statement (.cOltD fs ft) :=
  of_row _ 79 _ rfl (by rw [encode, formatR_and]; simp [and_31, and_63]; rfl)
    (by simp [encode, regAt, extract_formatR_b, extract_formatR_c, reg])

theorem cUeqS (fs ft : Fpr) : Statement (.cUeqS fs ft) :=
  of_row _ 80 _ rfl (by rw [encode, formatR_and]; simp [and_31, and_63]; rfl)
    (by simp [encode, regAt, extract_formatR_b, extract_formatR_c, reg])

theorem cUeqD (fs ft : Fpr) : Statement (.cUeqD fs ft) :=
  of_row _ 81 _ rfl (by rw [encode, formatR_and]; simp [and_31, and_63]; rfl)
    (by simp [encode, regAt, extract_formatR_b, extract_formatR_c, reg])

theorem cUleS (fs ft : Fpr) : Statement (.cUleS fs ft) :=
  of_row _ 82 _ rfl (by rw [encode, formatR_and]; simp [and_31, and_63]; rfl)
    (by simp [encode, regAt, extract_formatR_b, extract_formatR_c, reg])

theorem cUleD (fs ft : Fpr) : Statement (.cUleD fs ft) :=
  of_row _ 83 _ rfl (by rw [encode, formatR_and]; simp [and_31, and_63]; rfl)
    (by simp [encode, regAt, extract_formatR_b, extract_formatR_c, reg])

theorem cUltS (fs ft : Fpr) : Statement (.cUltS fs ft) :=
  of_row _ 84 _ rfl (by rw [encode, formatR_and]; simp [and_31, and_63]; rfl)
    (by simp [encode, regAt, extract_formatR_b, extract_formatR_c, reg])

theorem cUltD (fs ft : Fpr) : Statement (.cUltD fs ft) :=
  of_row _ 85 _ rfl (by rw [encode, formatR_and]; simp [and_31, and_63]; rfl)
    (by simp [encode, regAt, extract_formatR_b, extract_formatR_c, reg])

theorem cUnS (fs ft : Fpr) : Statement (.cUnS fs ft) :=
  of_row _ 86 _ rfl (by rw [encode, formatR_and]; simp [and_31, and_63]; rfl)
    (by simp [encode, regAt, extract_formatR_b, extract_formatR_c, reg])

theorem cUnD (fs ft : Fpr) : Statement (.cUnD fs ft) :=
  of_row _ 87 _ rfl (by rw [encode, formatR_and]; simp [and_31, and_63]; rfl)
    (by simp [encode, regAt, extract_formatR_b, extract_formatR_c, reg])

theorem movzS (fd fs : Fpr) (rt : Gpr) : Statement (.movzS fd fs rt) :=
  of_row _ 88 _ rfl (by rw [encode, formatR_and]; simp [and_31, and_63]; rfl)
    (by simp [encode, regAt, extract_formatR_b, extract_formatR_c, extract_formatR_d, reg])

theorem movzD (fd fs : Fpr) (rt : Gpr) : Statement (.movzD fd fs rt) :=
  of_row _ 89 _ rfl (by rw [encode, formatR_and]; simp [and_31, and_63]; rfl)
    (by simp [encode, regAt, extract_formatR_b, extract_formatR_c, extract_formatR_d, reg])

theorem movnS (fd fs : Fpr) (rt : Gpr) : Statement (.movnS fd fs rt) :=
  of_row _ 90 _ rfl (by rw [encode, formatR_and]; simp [and_31, and_63]; rfl)
    (by simp [encode, regAt, extract_formatR_b, extract_formatR_c, extract_formatR_d, reg])

theorem movnD (fd fs : Fpr) (rt : Gpr) : Statement (.movnD fd fs rt) :=
  of_row _ 91 _ rfl (by rw [encode, formatR_and]; simp [and_31, and_63]; rfl)
    (by simp [encode, regAt, extract_formatR_b, extract_formatR_c, extract_formatR_d, reg])

theorem movtS (fd fs : Fpr) : Statement (.movtS fd fs) :=
  of_row _ 92 _ rfl (by rw [encode, formatR_and]; simp [and_31, and_63]; rfl)
    (by simp [encode, regAt, extract_formatR_c, extract_formatR_d, reg])

theorem movtD (fd fs : Fpr) : Statement (.movtD fd fs) :=
  of_row _ 93 _ rfl (by rw [encode, formatR_and]; simp [and_31, and_63]; rfl)
    (by simp [encode, regAt, extract_formatR_c, extract_formatR_d, reg])

theorem movfS (fd fs : Fpr) : Statement (.movfS fd fs) :=
  of_row _ 94 _ rfl (by rw [encode, formatR_and]; simp [and_31, and_63]; rfl)
    (by simp [encode, regAt, extract_formatR_c, extract_formatR_d, reg])

theorem movfD (fd fs : Fpr) : Statement (.movfD fd fs) :=
  of_row _ 95 _ rfl (by rw [encode, formatR_and]; simp [and_31, and_63]; rfl)
    (by simp [encode, regAt, extract_formatR_c, extract_formatR_d, reg])

theorem cvtDS (fd fs : Fpr) : Statement (.cvtDS fd fs) :=
  of_row _ 96 _ rfl (by rw [encode, formatR_and]; simp [and_31, and_63]; rfl)
    (by simp [encode, regAt, extract_formatR_c, extract_formatR_d, reg])

theorem cvtSD (fd fs : Fpr) : Statement (.cvtSD fd fs) :=
  of_row _ 97 _ rfl (by rw [encode, formatR_and]; simp [and_31, and_63]; rfl)
    (by simp [encode, regAt, extract_formatR_c, extract_formatR_d, reg])

theorem cvtSW (fd fs : Fpr) : Statement (.cvtSW fd fs) :=
  of_row _ 98 _ rfl (by rw [encode, formatR_and]; simp [and_31, and_63]; rfl)
    (by simp [encode, regAt, extract_formatR_c, extract_formatR_d, reg])

theorem cvtDW (fd fs : Fpr) : Statement (.cvtDW fd fs) :=
  of_row _ 99 _ rfl (by rw [encode, formatR_and]; simp [and_31, and_63]; rfl)
    (by simp [encode, regAt, extract_formatR_c, extract_formatR_d, reg])

theorem cvtWS (fd fs : Fpr) : Statement (.cvtWS fd fs) :=
  of_row _ 100 _ rfl (by rw [encode, formatR_and]; simp [and_31, and_63]; rfl)
    (by simp [encode, regAt, extract_formatR_c, extract_formatR_d, reg])

theorem cvtWD (fd fs : Fpr) : Statement (.cvtWD fd fs) :=
  of_row _ 101 _ rfl (by rw [encode, formatR_and]; simp [and_31, and_63]; rfl)
    (by simp [encode, regAt, extract_formatR_c, extract_formatR_d, reg])

theorem roundWS (fd fs : Fpr) : Statement (.roundWS fd fs) :=
  of_row _ 102 _ rfl (by rw [encode, formatR_and]; simp [and_31, and_63]; rfl)
    (by simp [encode, regAt, extract_formatR_c, extract_formatR_d, reg])

theorem roundWD (fd fs : Fpr) : Statement (.roundWD fd fs) :=
  of_row _ 103 _ rfl (by rw [encode, formatR_and]; simp [and_31, and_63]; rfl)
    (by simp [encode, regAt, extract_formatR_c, extract_formatR_d, reg])

theorem ceilWS (fd fs : Fpr) : Statement (.ceilWS fd fs) :=
  of_row _ 104 _ rfl (by rw [encode, formatR_and]; simp [and_31, and_63]; rfl)
    (by simp [encode, regAt, extract_formatR_c, extract_formatR_d, reg])

theorem ceilWD (fd fs : Fpr) : Statement (.ceilWD fd fs) :=
  of_row _ 105 _ rfl (by rw [encode, formatR_and]; simp [and_31, and_63]; rfl)
    (by simp [encode, regAt, extract_formatR_c, extract_formatR_d, reg])

theorem floorWS (fd fs : Fpr) : Statement (.floorWS fd fs) :=
  of_row _ 106 _ rfl (by rw [encode, formatR_and]; simp [and_31, and_63]; rfl)
    (by simp [encode, regAt, extract_formatR_c, extract_formatR_d, reg])

theorem floorWD (fd fs : Fpr) : Statement (.floorWD fd fs) :=
  of_row _ 107 _ rfl (by rw [encode, formatR_and]; simp [and_31, and_63]; rfl)
    (by simp [encode, regAt, extract_formatR_c, extract_formatR_d, reg])

theorem truncWS (fd fs : Fpr) : Statement (.truncWS fd fs) :=
  of_row _ 108 _ rfl (by rw [encode, formatR_and]; simp [and_31, and_63]; rfl)
    (by simp [encode, regAt, extract_formatR_c, extract_formatR_d, reg])

theorem truncWD (fd fs : Fpr) : Statement (.truncWD fd fs) :=
  of_row _ 109 _ rfl (by rw [encode, formatR_and]; simp [and_31, and_63]; rfl)
    (by simp [encode, regAt, extract_formatR_c, extract_formatR_d, reg])

theorem mfc1 (rt : Gpr) (fs : Fpr) : Statement (.mfc1 rt fs) :=
  of_row _ 110 _ rfl (by rw [encode, formatR_and]; simp [and_63]; rfl)
    (by simp [encode, regAt, extract_formatR_b, extract_formatR_c, reg])

theorem mtc1 (rt : Gpr) (fs : Fpr) : Statement (.mtc1 rt fs) :=
  of_row _ 111 _ rfl (by rw [encode, formatR_and]; simp [and_31, and_63]; rfl)
    (by simp [encode, regAt, extract_formatR_b, extract_formatR_c, reg])

theorem mfhc1 (rt : Gpr) (fs : Fpr) : Statement (.mfhc1 rt fs) :=
  of_row _ 112 _ rfl (by rw [encode, formatR_and]; simp [and_31, and_63]; rfl)
    (by simp [encode, regAt, extract_formatR_b, extract_formatR_c, reg])

theorem mflc1 (rt : Gpr) (fs : Fpr) : Statement (.mflc1 rt fs) :=
  of_row _ 113 _ rfl (by rw [encode, formatR_and]; simp [and_31, and_63]; rfl)
    (by simp [encode, regAt, extract_formatR_b, extract_formatR_c, reg])

theorem mthc1 (rt : Gpr) (fs : Fpr) : Statement (.mthc1 rt fs) :=
  of_row _ 114 _ rfl (by rw [encode, formatR_and]; simp [and_31, and_63]; rfl)
    (by simp [encode, regAt, extract_formatR_b, extract_formatR_c, reg])

theorem mtlc1 (rt : Gpr) (fs : Fpr) : Statement (.mtlc1 rt fs) :=
  of_row _ 115 _ rfl (by rw [encode, formatR_and]; simp [and_31, and_63]; rfl)
    (by simp [encode, regAt, extract_formatR_b, extract_formatR_c, reg])

theorem ldb (rt : Gpr) (imm : BitVec 16) (rs : Gpr) : Statement (.ldb rt imm rs) :=
  of_row _ 116 _ rfl (by rw [encode, formatI_and]; simp [and_63]; rfl)
    (by simp [encode, regAt, extract_formatI_a, extract_formatI_b, extract_formatI_imm, reg])

theorem ldbu (rt : Gpr) (imm : BitVec 16) (rs : Gpr) : Statement (.ldbu rt imm rs) :=
  of_row _ 117 _ rfl (by rw [encode, formatI_and]; simp [and_63]; rfl)
    (by simp [encode, regAt, extract_formatI_a, extract_formatI_b, extract_formatI_imm, reg])

theorem ldh (rt : Gpr) (imm : BitVec 16) (rs : Gpr) : Statement (.ldh rt imm rs) :=
  of_row _ 118 _ rfl (by rw [encode, formatI_and]; simp [and_63]; rfl)
    (by simp [encode, regAt, extract_formatI_a, extract_formatI_b, extract_formatI_imm, reg])

theorem ldhu (rt : Gpr) (imm : BitVec 16) (rs : Gpr) : Statement (.ldhu rt imm rs) :=
  of_row _ 119 _ rfl (by rw [encode, formatI_and]; simp [and_63]; rfl)
    (by simp [encode, regAt, extract_formatI_a, extract_formatI_b, extract_formatI_imm, reg])

theorem ldw (rt : Gpr) (imm : BitVec 16) (rs : Gpr) : Statement (.ldw rt imm rs) :=
  of_row _ 120 _ rfl (by rw [encode, formatI_and]; simp [and_63]; rfl)
    (by simp [encode, regAt, extract_formatI_a, extract_formatI_b, extract_formatI_imm, reg])

theorem ldwl (rt : Gpr) (imm : BitVec 16) (rs : Gpr) : Statement (.ldwl rt imm rs) :=
  of_row _ 121 _ rfl (by rw [encode, formatI_and]; simp [and_63]; rfl)
    (by simp [encode, regAt, extract_formatI_a, extract_formatI_b, extract_formatI_imm, reg])

theorem ldwr (rt : Gpr) (imm : BitVec 16) (rs : Gpr) : Statement (.ldwr rt imm rs) :=
  of_row _ 122 _ rfl (by rw [encode, formatI_and]; simp [and_63]; rfl)
    (by simp [encode, regAt, extract_formatI_a, extract_formatI_b, extract_formatI_imm, reg])

theorem stb (rt : Gpr) (imm : BitVec 16) (rs : Gpr) : Statement (.stb rt imm rs) :=
  of_row _ 123 _ rfl (by rw [encode, formatI_and]; simp [and_63]; rfl)
    (by simp [encode, regAt, extract_formatI_a, extract_formatI_b, extract_formatI_imm, reg])

theorem sth (rt : Gpr) (imm : BitVec 16) (rs : Gpr) : Statement (.sth rt imm rs) :=
  of_row _ 124 _ rfl (by rw [encode, formatI_and]; simp [and_63]; rfl)
    (by simp [encode, regAt, extract_formatI_a, extract_formatI_b, extract_formatI_imm, reg])

theorem stw (rt : Gpr) (imm : BitVec 16) (rs : Gpr) : Statement (.stw rt imm rs) :=
  of_row _ 125 _ rfl (by rw [encode, formatI_and]; simp [and_63]; rfl)
    (by simp [encode, regAt, extract_formatI_a, extract_formatI_b, extract_formatI_imm, reg])

theorem stwl (rt : Gpr) (imm : BitVec 16) (rs : Gpr) : Statement (.stwl rt imm rs) :=
  of_row _ 126 _ rfl (by rw [encode, formatI_and]; simp [and_63]; rfl)
    (by simp [encode, regAt, extract_formatI_a, extract_formatI_b, extract_formatI_imm, reg])

theorem stwr (rt : Gpr) (imm : BitVec 16) (rs : Gpr) : Statement (.stwr rt imm rs) :=
  of_row _ 127 _ rfl (by rw [encode, formatI_and]; simp [and_63]; rfl)
    (by simp [encode, regAt, extract_formatI_a, extract_formatI_b, extract_formatI_imm, reg])

theorem ll (rt : Gpr) (imm : BitVec 16) (rs : Gpr) : Statement (.ll rt imm rs) :=
  of_row _ 128 _ rfl (by rw [encode, formatI_and]; simp [and_63]; rfl)
    (by simp [encode, regAt, extract_formatI_a, extract_formatI_b, extract_formatI_imm, reg])

theorem sc (rt : Gpr) (imm : BitVec 16) (rs : Gpr) : Statement (.sc rt imm rs) :=
  of_row _ 129 _ rfl (by rw [encode, formatI_and]; simp [and_63]; rfl)
    (by simp [encode, regAt, extract_formatI_a, extract_formatI_b, extract_formatI_imm, reg])

theorem lwc1 (ft : Fpr) (imm : BitVec 16) (rs : Gpr) : Statement (.lwc1 ft imm rs) :=
  of_row _ 130 _ rfl (by rw [encode, formatI_and]; simp [and_63]; rfl)
    (by simp [encode, regAt, extract_formatI_a, extract_formatI_b, extract_formatI_imm, reg])

theorem ldc1 (ft : Fpr) (imm : BitVec 16) (rs : Gpr) : Statement (.ldc1 ft imm rs) :=
  of_row _ 131 _ rfl (by rw [encode, formatI_and]; simp [and_63]; rfl)
    (by simp [encode, regAt, extract_formatI_a, extract_formatI_b, extract_formatI_imm, reg])

theorem swc1 (ft : Fpr) (imm : BitVec 16) (rs : Gpr) : Statement (.swc1 ft imm rs) :=
  of_row _ 132 _ rfl (by rw [encode, formatI_and]; simp [and_63]; rfl)
    (by simp [encode, regAt, extract_formatI_a, extract_formatI_b, extract_formatI_imm, reg])

theorem sdc1 (ft : Fpr) (imm : BitVec 16) (rs : Gpr) : Statement (.sdc1 ft imm rs) :=
  of_row _ 133 _ rfl (by rw [encode, formatI_and]; simp [and_63]; rfl)
    (by simp [encode, regAt, extract_formatI_a, extract_formatI_b, extract_formatI_imm, reg])

end Sys2Proof.Laws.Matches
end

