-- ==== Sys2Proof/Tests/Slice0.lean ====
section
/-! SUPPORT. The model's own tests: the checks of well-formedness, a word of every instruction, single
steps, and for each statement that has hypotheses a state and operands that meet them. The words and the
results of the steps are those of 95_test_vectors.md, which gives each vector's number; where it has no
word for an instruction, the word is written out from the formats of 30_encoding.md. -/

namespace Sys2Proof.Tests

open Sys2Proof.Machine

set_option Elab.async false

/-! ## Helpers -/

/-- The next state, if there is one. -/
def nextOf : Result → Option State
  | .next t => some t
  | _ => none

theorem next_of {r : Result} {t : State} (h : nextOf r = some t) : r = .next t := by
  cases r <;> simp_all [nextOf]

theorem exists_next {r : Result} (h : (nextOf r).isSome = true) : ∃ t, r = .next t := by
  cases r <;> simp_all [nextOf]

/-- The start of the test vectors: pc 0x1000, every GPR 0, nothing written. -/
def probe : State := { State.reset with pc := 0x1000#32 }

/-- A change of a state. -/
abbrev Change := State → State

def x (r : Gpr) (v : Word) : Change := fun s => { s with gpr := s.gpr.set r v }
def f (j : Fpr) (v : Word) : Change := fun s => { s with fpr := s.fpr.set j ⟨v, true⟩ }
def cc (b : Bool) : Change := fun s => { s with cc := ⟨b, true⟩ }
def ldireg (r : Gpr) : Change := fun s => { s with ldireg := ⟨r, true⟩ }
def ijmpreg (v : Word) : Change := fun s => { s with ijmpreg := ⟨v, true⟩ }
def pc (v : Word) : Change := fun s => { s with pc := v }
def exited (v : Word) : Change := fun s => { s with status := .exited v }
def halted (t : Trap) (a w : Word) : Change := fun s => { s with status := .halted t a (some w) }
def reply (r : HostReply) : Change := fun s => { s with hostReplies := [r] }
def control (c : Control) : Change := fun s => { s with control := c }
def noReply : Change := fun s => { s with hostReplies := [] }
def bytes (a : Word) (l : List Byte) : Change := fun s => { s with mem := s.mem.writeBytes a l }
def word (a v : Word) : Change := bytes a (wordBytes v)
def only (a : Nat) : Change := fun s => { s with emb := { s.emb with launch := [⟨a, 4⟩] } }
def unsettable : Change := fun s => { s with emb := { s.emb with roundModeSettable := false } }

/-- The bytes the load and store vectors start with. -/
def sample : Change :=
  bytes 0x10010000 [0x11, 0x22, 0x33, 0x44, 0x55, 0x66, 0x77, 0x88, 0x80, 0x99, 0x00, 0x00]

/-- The start state with some changes. -/
def start (l : List Change) : State := l.foldl (fun s c => c s) probe

/-- The start state with some changes and a word to run. -/
def fetching (w : Word) (l : List Change) : State := (start l).withFetchWord 32 w.toNat

/-- The step of the word `w` from `pre` changes `post` and nothing else (the set of stored addresses
apart). -/
abbrev steps (w : Word) (pre post : List Change) : Prop :=
  (nextOf (step (fetching w pre))).map (fun t => { t with stored := [] }) =
    some (post.foldl (fun s c => c s) (fetching w pre))

/-- The step of the word `w` halts with the fault `t` and changes nothing else. -/
abbrev halts (w : Word) (pre : List Change) (t : Trap) : Prop :=
  nextOf (step (fetching w pre)) =
    some { fetching w pre with status := .halted t (fetching w pre).pc (some w) }

/-- The host's turn or the resume from `pre` changes `post` and nothing else. -/
abbrev turns (pre post : List Change) : Prop :=
  nextOf (step (start pre)) = some (start (pre ++ post))

/-- Each word decodes to the instruction beside it. -/
abbrev decodesTo (l : List (Word × Instr)) : Prop := ∀ p ∈ l, decode p.1 = .ok p.2

/-! ## Well-formed terms (40_integer.md R234) -/

theorem test_ext_size_0_refused : (Instr.ext 2 1 0 0).WellFormed = false := by decide
theorem test_ext_size_33_refused : (Instr.ext 2 1 0 33).WellFormed = false := by decide
theorem test_ext_pos_32_refused : (Instr.ext 2 1 32 1).WellFormed = false := by decide
theorem test_ext_accepted : (Instr.ext 2 1 31 32).WellFormed = true := by decide

/-! ## Decoding: a word of every instruction -/

theorem test_decode_integer_alu : decodesTo [
    (0b000000_00001_00010_00011_00000100000#32, .add 3 1 2),
    (0b000000_00001_00010_00011_00000100010#32, .sub 3 1 2),
    (0b000000_00001_00010_00011_00000100100#32, .and 3 1 2),
    (0b000000_00001_00010_00011_00000100101#32, .or 3 1 2),
    (0b000000_00001_00010_00011_00000100110#32, .xor 3 1 2),
    (0b000000_00001_00010_00011_00000100111#32, .nor 3 1 2),
    (0b000000_00001_00010_00011_00000101010#32, .slt 3 1 2),
    (0b000000_00001_00010_00011_00000101011#32, .sltu 3 1 2),
    (0b001000_00001_00010_1000000000000000#32, .addi 2 1 0x8000#16),
    (0b001010_00001_00010_1111111111111111#32, .slti 2 1 0xFFFF#16),
    (0b001011_00001_00010_1111111111111111#32, .sltiu 2 1 0xFFFF#16),
    (0b001100_00001_00010_1111111111111111#32, .andi 2 1 0xFFFF#16),
    (0b001101_00001_00010_1000000000000000#32, .ori 2 1 0x8000#16),
    (0b001110_00001_00010_1111111111111111#32, .xori 2 1 0xFFFF#16),
    (0b000000_00000_00001_00010_11111_000000#32, .sll 2 1 31),
    (0b000000_00000_00001_00010_00100_000010#32, .srl 2 1 4),
    (0b000000_00000_00001_00010_00100_000011#32, .sra 2 1 4),
    (0b000000_00011_00010_00001_00000000100#32, .sllv 1 2 3),
    (0b000000_00011_00010_00001_00000000110#32, .srlv 1 2 3),
    (0b000000_00011_00010_00001_00000000111#32, .srav 1 2 3),
    (0b000000_00001_00010_00001_00100_000010#32, .ror 1 2 4),
    (0b000000_00011_00010_00001_00001000110#32, .rorr 1 2 3)] := by decide +kernel

theorem test_decode_integer_other : decodesTo [
    (0b000000_00001_00010_00011_00100_011000#32, .mul 3 4 1 2),
    (0b000000_00001_00010_00011_00100_011001#32, .mulu 3 4 1 2),
    (0b000000_00001_00010_00011_00100_011010#32, .div 3 4 1 2),
    (0b000000_00001_00010_00011_00100_011011#32, .divu 3 4 1 2),
    (0b011100_00001_00000_00010_00000100000#32, .clz 2 1 0#5),
    (0b011111_00000_00001_00010_10000100000#32, .seb 2 1),
    (0b011111_00000_00001_00010_11000100000#32, .seh 2 1),
    (0b011111_00001_00010_11111_00000_000000#32, .ext 2 1 0 32),
    (0b000000_00010_00001_00001_00000001010#32, .movz 1 2 1),
    (0b000000_00010_00011_00001_00000001011#32, .movn 1 2 3),
    (0b000000_00010_00001_00001_00000000001#32, .movt 1 2),
    (0b000000_00010_00000_00001_00000000001#32, .movf 1 2)] := by decide +kernel

theorem test_decode_control : decodesTo [
    (0b000010_00000000000000000001000000#32, .jump 0x40#26),
    (0b000011_00000100000000000001000000#32, .call 0x100040#26),
    (0b000000_11111_000000000000000001000#32, .jumpr 31),
    (0b000000_11111_000001111100000001001#32, .callr 31),
    (0b000100_00001_00010_1111111111111111#32, .jeq 1 2 0xFFFF#16),
    (0b000101_00001_00010_1111111111111110#32, .jne 1 2 0xFFFE#16),
    (0b000110_00001_00000_0000000000000001#32, .jlez 1 0x1#16),
    (0b000111_00001_00000_0000000000000001#32, .jgtz 1 0x1#16),
    (0b000001_00001_00000_1000000000000000#32, .jltz 1 0x8000#16),
    (0b000001_00001_00001_0000000000000010#32, .jgez 1 0x2#16),
    (0b010001_0100000001_0000000000000011#32, .bc1t 0x3#16),
    (0b010001_0100000000_0000000000000011#32, .bc1f 0x3#16)] := by decide +kernel

theorem test_decode_compact : decodesTo [
    (0b011000_0000000000_0000000000010000#32, .rcall 0x10#16),
    (0b011001_000000_00010000000000010000#32, .ijmphi 0x10010#20),
    (0b011010_00100_000000000_000000100000#32, .ijmp 4 0x20#12),
    (0b011110_00000_00101_00_01001000110100#32, .ldi 5 0x1234#14),
    (0b011011_00000000_000000000001001000#32, .ldihi 0x48#18)] := by decide +kernel

theorem test_decode_trap : decodesTo [
    (0b000000_00001_00010_0000000000_110100#32, .teq 1 2 0#10),
    (0b000000_00000000000000000000_001101#32, .brk 0#20),
    (0b000000_00000000000000000000_001100#32, .syscall 0#20)] := by decide +kernel

theorem test_decode_fp_arith : decodesTo [
    (0b010001_10000_00010_00001_00011_000000#32, .addS 3 1 2),
    (0b010001_10001_00100_00010_00000_000000#32, .addD 0 2 4),
    (0b010001_10000_00001_00001_00011_000001#32, .subS 3 1 1),
    (0b010001_10001_00100_00010_00000_000001#32, .subD 0 2 4),
    (0b010001_10000_00010_00001_00011_000010#32, .mulS 3 1 2),
    (0b010001_10001_00100_00010_00000_000010#32, .mulD 0 2 4),
    (0b010001_10000_00010_00001_00011_000011#32, .divS 3 1 2),
    (0b010001_10001_00100_00010_00110_000011#32, .divD 6 2 4),
    (0b010001_1000000000_00001_00010_000100#32, .sqrtS 2 1),
    (0b010001_1000100000_00010_00100_000100#32, .sqrtD 4 2),
    (0b010001_1000000000_00001_00010_000101#32, .absS 2 1),
    (0b010001_1000100000_00010_00100_000101#32, .absD 4 2),
    (0b010001_1000000000_00001_00010_000111#32, .negS 2 1),
    (0b010001_1000100000_00010_00100_000111#32, .negD 4 2),
    (0b010001_1000000000_00001_00010_000110#32, .movS 2 1),
    (0b010001_1000100000_00010_00001_000110#32, .movD 1 2),
    (0b010011_00011_00010_00001_00100_100000#32, .maddS 4 3 1 2),
    (0b010011_00110_00100_00010_11111_100001#32, .maddD 31 6 2 4),
    (0b010011_00011_00010_00001_00100_101000#32, .msubS 4 3 1 2),
    (0b010011_00100_00010_00010_00110_101001#32, .msubD 6 4 2 2)] := by decide +kernel

theorem test_decode_fp_compare : decodesTo [
    (0b010001_10000_00010_00001_00000110010#32, .cEqS 1 2),
    (0b010001_10001_00100_00010_00000110010#32, .cEqD 2 4),
    (0b010001_10000_00010_00001_00000110110#32, .cOleS 1 2),
    (0b010001_10001_00010_00010_00000110110#32, .cOleD 2 2),
    (0b010001_10000_00010_00001_00000110100#32, .cOltS 1 2),
    (0b010001_10001_00100_00010_00000110100#32, .cOltD 2 4),
    (0b010001_10000_00010_00001_00000110011#32, .cUeqS 1 2),
    (0b010001_10001_00100_00010_00000110011#32, .cUeqD 2 4),
    (0b010001_10000_00010_00001_00000110111#32, .cUleS 1 2),
    (0b010001_10001_00100_00010_00000110111#32, .cUleD 2 4),
    (0b010001_10000_00010_00001_00000110101#32, .cUltS 1 2),
    (0b010001_10001_00100_00010_00000110101#32, .cUltD 2 4),
    (0b010001_10000_00010_00001_00000110001#32, .cUnS 1 2),
    (0b010001_10001_00100_00010_00000110001#32, .cUnD 2 4)] := by decide +kernel

theorem test_decode_fp_move : decodesTo [
    (0b010001_10000_00011_00001_00010_010010#32, .movzS 2 1 3),
    (0b010001_10001_00011_00010_00110_010010#32, .movzD 6 2 3),
    (0b010001_10000_00011_00001_00010_010011#32, .movnS 2 1 3),
    (0b010001_10001_00011_00010_00110_010011#32, .movnD 6 2 3),
    (0b010001_1000000001_00001_00010_010001#32, .movtS 2 1),
    (0b010001_1000100001_00010_11111_010001#32, .movtD 31 2),
    (0b010001_1000000000_00001_00010_010001#32, .movfS 2 1),
    (0b010001_1000100000_00010_00100_010001#32, .movfD 4 2)] := by decide +kernel

theorem test_decode_fp_convert : decodesTo [
    (0b010001_1000000000_00001_00010_100001#32, .cvtDS 2 1),
    (0b010001_1000100000_00010_00100_100000#32, .cvtSD 4 2),
    (0b010001_1010000000_00001_00010_100000#32, .cvtSW 2 1),
    (0b010001_1010000000_00001_00010_100001#32, .cvtDW 2 1),
    (0b010001_1000000000_00001_00010_100100#32, .cvtWS 2 1),
    (0b010001_1000100000_00010_00100_100100#32, .cvtWD 4 2),
    (0b010001_1000000000_00001_00010_001100#32, .roundWS 2 1),
    (0b010001_1000100000_00010_00100_001100#32, .roundWD 4 2),
    (0b010001_1000000000_00001_00010_001110#32, .ceilWS 2 1),
    (0b010001_1000100000_00010_00100_001110#32, .ceilWD 4 2),
    (0b010001_1000000000_00001_00010_001111#32, .floorWS 2 1),
    (0b010001_1000100000_00010_00100_001111#32, .floorWD 4 2),
    (0b010001_1000000000_00001_00010_001101#32, .truncWS 2 1),
    (0b010001_1000100000_00010_00100_001101#32, .truncWD 4 2),
    (0b010001_00000_00010_00001_00000000000#32, .mfc1 2 1),
    (0b010001_00100_00010_00011_00000000000#32, .mtc1 2 3),
    (0b010001_00011_00101_00010_00000000000#32, .mfhc1 5 2),
    (0b010001_00001_00101_11111_00000000000#32, .mflc1 5 31),
    (0b010001_00111_00101_00010_00000000000#32, .mthc1 5 2),
    (0b010001_00101_00101_00010_00000000000#32, .mtlc1 5 2)] := by decide +kernel

theorem test_decode_load : decodesTo [
    (0b100000_00001_00011_0000000000001000#32, .ldb 3 0x8#16 1),
    (0b100100_00001_00011_0000000000001000#32, .ldbu 3 0x8#16 1),
    (0b100001_00001_00011_0000000000001000#32, .ldh 3 0x8#16 1),
    (0b100101_00001_00011_0000000000001000#32, .ldhu 3 0x8#16 1),
    (0b100011_00001_00011_1111111111111100#32, .ldw 3 0xFFFC#16 1),
    (0b100010_00001_00010_0000000000000000#32, .ldwl 2 0x0#16 1),
    (0b100110_00001_00010_0000000000000000#32, .ldwr 2 0x0#16 1)] := by decide +kernel

theorem test_decode_store : decodesTo [
    (0b101000_00001_00010_0000000000000001#32, .stb 2 0x1#16 1),
    (0b101001_00001_00010_0000000000000010#32, .sth 2 0x2#16 1),
    (0b101011_00001_00010_0000000000000100#32, .stw 2 0x4#16 1),
    (0b101010_00001_00010_0000000000000000#32, .stwl 2 0x0#16 1),
    (0b101110_00001_00010_0000000000000000#32, .stwr 2 0x0#16 1),
    (0b110000_00001_00011_0000000000000000#32, .ll 3 0x0#16 1),
    (0b111000_00001_00010_0000000000000000#32, .sc 2 0x0#16 1),
    (0b110001_00001_00100_0000000000000000#32, .lwc1 4 0x0#16 1),
    (0b110101_00001_00011_0000000000000000#32, .ldc1 3 0x0#16 1),
    (0b111001_00001_00100_0000000000000100#32, .swc1 4 0x4#16 1),
    (0b111101_00001_00010_0000000000000000#32, .sdc1 2 0x0#16 1)] := by decide +kernel

/-! ## Words that are no instruction (30_encoding.md R157) -/

/-- V205: no row. -/
theorem test_no_row : decode 0xFC000000#32 = .error (.reservedInstruction 0xFC000000#32) := by rfl

/-- V206: an unused field that is not 0. -/
theorem test_unused_field : decode 0x00221860#32 = .error (.reservedInstruction 0x00221860#32) := by rfl

/-- The bit numbers of the opcode table are those of the word. -/
theorem test_table_word : decodeTableWord 32 0x00221820 = some (.add 3 1 2) := by decide +kernel

/-! ## One step -/

/-- V3: add x0, x1, x2 (GPR 0 is storage) -/
theorem test_add_gpr0_is_storage_V3 :
    steps 0x00220020 [x 1 2, x 2 3] [x 0 5, pc 0x1004] := by decide +kernel

/-- V13: addi x2, x1, -32768 -/
theorem test_addi_sign_extends_V13 :
    steps 0x20228000 [x 1 0] [x 2 0xFFFF8000, pc 0x1004] := by decide +kernel

/-- V16: sltiu x2, x1, -1 (0xFFFFFFFF unsigned) -/
theorem test_sltiu_sign_extends_V16 : steps 0x2C22FFFF [x 1 5] [x 2 1, pc 0x1004] := by decide +kernel

/-- V23: sllv x1, x2, x3 (amount 33) -/
theorem test_sllv_low_five_bits_V23 :
    steps 0x00620804 [x 2 1, x 3 0x21] [x 1 2, pc 0x1004] := by decide +kernel

/-- V26: ror x1, x2, 4 -/
theorem test_ror_V26 :
    steps 0x00220902 [x 2 0x12345678] [x 1 0x81234567, pc 0x1004] := by decide +kernel

/-- V31: mul x3, x4, x1, x2 -/
theorem test_mul_signed_V31 :
    steps 0x00221918 [x 1 0x80000000, x 2 0x7FFFFFFF]
      [x 3 0x80000000, x 4 0xC0000000, pc 0x1004] := by decide +kernel

/-- V32: mul x0, x4, x1, x2 (low half discarded) -/
theorem test_mul_discards_V32 :
    steps 0x00220118 [x 1 0x10000, x 2 0x10000] [x 0 0, x 4 1, pc 0x1004] := by decide +kernel

/-- V36: div x3, x4, x1, x2 -/
theorem test_div_toward_zero_V36 :
    steps 0x0022191A [x 1 0xFFFFFFF9, x 2 2]
      [x 3 0xFFFFFFFD, x 4 0xFFFFFFFF, pc 0x1004] := by decide +kernel

/-- V40: div x3, x4, x1, x2 (-2^31 / -1) -/
theorem test_div_overflow_V40 :
    halts 0x0022191A [x 1 0x80000000, x 2 0xFFFFFFFF] (.divideOverflow) := by decide +kernel

/-- V43: divu x3, x4, x1, x2 -/
theorem test_divu_V43 :
    steps 0x0022191B [x 1 0xFFFFFFF9, x 2 2] [x 3 0x7FFFFFFC, x 4 1, pc 0x1004] := by decide +kernel

/-- V48: clz x2, x1 -/
theorem test_clz_V48 : steps 0x70201020 [x 1 1] [x 2 0x1F, pc 0x1004] := by decide +kernel

/-- V50: seb x2, x1 -/
theorem test_seb_V50 :
    steps 0x7C011420 [x 1 0x12345680] [x 2 0xFFFFFF80, pc 0x1004] := by decide +kernel

/-- V54: ext x2, x1, 8, 12 (msbd 11, lsb 8) -/
theorem test_ext_V54 : steps 0x7C225A00 [x 1 0x12345678] [x 2 0x456, pc 0x1004] := by decide +kernel

/-- V55: ext x2, x1, 16, 17 (msbd 16, lsb 16) -/
theorem test_ext_past_bit_31_V55 :
    halts 0x7C228400 [x 1 0x12345678] (.illegalExtField) := by decide +kernel

/-- V56: movz x1, x2, x1 (guard = destination, 0) -/
theorem test_movz_guard_is_destination_V56 :
    steps 0x0041080A [x 1 0, x 2 7] [x 1 7, pc 0x1004] := by decide +kernel

/-- V60: jump 0x00000100 from the region of 0x0FFFFFFC -/
theorem test_jump_region_of_npc_V60 :
    steps 0x08000040 [pc 0xFFFFFFC] [pc 0x10000100] := by decide +kernel

/-- V66: callr x31 (target is the old x31) -/
theorem test_callr_reads_old_link_V66 :
    steps 0x03E0F809 [pc 0x400020, x 31 0x400200] [x 31 0x400024, pc 0x400200] := by decide +kernel

/-- V67: jeq x1, x2, -1 (to itself) -/
theorem test_jeq_to_itself_V67 : steps 0x1022FFFF [x 1 3, x 2 3] [pc 0x1000] := by decide +kernel

/-- V69: jne x1, x2, -2 from pc 0x4 (target 0) -/
theorem test_jne_to_0_V69 : halts 0x1422FFFE [pc 4, x 1 1] (.undefinedJumpTarget) := by decide +kernel

/-- V73: jgtz x1, 1 -/
theorem test_jgtz_of_0_V73 : steps 0x1C200001 [x 1 0] [pc 0x1004] := by decide +kernel

/-- V75: jltz x1, 0x8000 (largest backward reach) -/
theorem test_jltz_backward_V75 :
    steps 0x04208000 [pc 0x100000, x 1 0xFFFFFFFF] [pc 0xE0004] := by decide +kernel

/-- V80: addi x1, x1, 1 at 0xFFFFFFFC (sequential advance to 0) -/
theorem test_advance_to_0_V80 :
    halts 0x20210001 [pc 0xFFFFFFFC] (.undefinedJumpTarget) := by decide +kernel

/-- V82: rcall -1 (calls itself) -/
theorem test_rcall_itself_V82 :
    steps 0x6000FFFF [pc 0x400000] [x 31 0x400004, pc 0x400000] := by decide +kernel

/-- V83: ijmphi 0x10010 -/
theorem test_ijmphi_V83 :
    steps 0x64010010 [ijmpreg 0x12345678] [ijmpreg 0x10010000, pc 0x1004] := by decide +kernel

/-- V85: ijmp x4, 0x008 (index -1) -/
theorem test_ijmp_index_wraps_V85 :
    steps 0x68800008 [x 4 0xFFFFFFFF, ijmpreg 0x10010000, bytes 0x10010004 [0, 0x40, 4, 0]]
      [pc 0x400400] := by decide +kernel

/-- V86: ijmp x4, 0x002 (table address not a multiple of 4) -/
theorem test_ijmp_misaligned_V86 :
    halts 0x68800002 [x 4 0, ijmpreg 0x10010000] (.misalignedAccess 0x10010002) := by decide +kernel

/-- V89: ldi x5, 0x1234 -/
theorem test_ldi_keeps_high_V89 :
    steps 0x78051234 [x 5 0xFFFFFFFF] [x 5 0xFFFFD234, ldireg 5, pc 0x1004] := by decide +kernel

/-- V91: ldihi 0x3FFFF -/
theorem test_ldihi_keeps_low_V91 :
    steps 0x6C03FFFF [x 7 1, ldireg 7] [x 7 0xFFFFC001, pc 0x1004] := by decide +kernel

/-- V94: teq x1, x1 -/
theorem test_teq_traps_V94 : halts 0x00210034 [x 1 3] (.trapEqual) := by decide +kernel

/-- V95: break -/
theorem test_break_V95 : halts 0x0000000D [pc 0x2000] (.break) := by decide +kernel

/-- V102: add.s f3, f1, f2 -/
theorem test_add_s_V102 :
    steps 0x460208C0 [f 1 0x3F800000, f 2 0x33800001] [f 3 0x3F800001, pc 0x1004] := by decide +kernel

/-- V103: add.s f3, f1, f2 (-0 + -0) -/
theorem test_add_s_V103 :
    steps 0x460208C0 [f 1 0x80000000, f 2 0x80000000] [f 3 0x80000000, pc 0x1004] := by decide +kernel

/-- V104: sub.s f3, f1, f1 (x - x) -/
theorem test_sub_s_V104 : steps 0x460108C1 [f 1 0xC0400000] [f 3 0, pc 0x1004] := by decide +kernel

/-- V105: add.d f0, f2, f4 (0.1 + 0.2) -/
theorem test_add_d_V105 :
    steps 0x46241000 [f 2 0x9999999A, f 3 0x3FB99999, f 4 0x9999999A, f 5 0x3FC99999]
      [f 0 0x33333334, f 1 0x3FD33333, pc 0x1004] := by decide +kernel

/-- V107: mul.s f3, f1, f2 (subnormal result) -/
theorem test_mul_s_V107 :
    steps 0x460208C2 [f 1 0xD800000, f 2 0x2B800000] [f 3 0x200, pc 0x1004] := by decide +kernel

/-- V108: div.s f3, f1, f2 (-1 / +0) -/
theorem test_div_s_V108 :
    steps 0x460208C3 [f 1 0xBF800000, f 2 0] [f 3 0xFF800000, pc 0x1004] := by decide +kernel

/-- V111: sqrt.d f4, f2 (2.0) -/
theorem test_sqrt_d_V111 :
    steps 0x46201104 [f 2 0, f 3 0x40000000]
      [f 4 0x667F3BCD, f 5 0x3FF6A09E, pc 0x1004] := by decide +kernel

/-- V113: neg.s f2, f1 (NaN) -/
theorem test_neg_s_V113 :
    steps 0x46000887 [f 1 0x7FC00001] [f 2 0xFFC00001, pc 0x1004] := by decide +kernel

/-- V114: add.d f0, f31, f2 (index 31) -/
theorem test_add_d_V114 :
    halts 0x4622F800 [f 2 0, f 3 0x3FF00000, f 31 0] (.doubleRegisterOutOfRange 31) := by decide +kernel

/-- V116: mov.d f1, f2 (overlapping) -/
theorem test_mov_d_V116 :
    steps 0x46201046 [f 2 0, f 3 0x40080000] [f 1 0, f 2 0x40080000, pc 0x1004] := by decide +kernel

/-- V117: madd.s f4, f3, f1, f2 (2 * 3 + 1) -/
theorem test_madd_s_V117 :
    steps 0x4C620920 [f 1 0x40000000, f 2 0x40400000, f 3 0x3F800000]
      [f 4 0x40E00000, pc 0x1004] := by decide +kernel

/-- V118: msub.d f6, f4, f2, f2 (fused: one rounding) -/
theorem test_msub_d_V118 :
    steps 0x4C8211A9 [f 2 0x400000, f 3 0x3FF00000, f 4 0, f 5 0x3FF00000]
      [f 6 0x200000, f 7 0x3E200000, pc 0x1004] := by decide +kernel

/-- V120: c.eq.s f1, f2 (+0, -0) -/
theorem test_c_eq_s_V120 :
    steps 0x46020832 [f 1 0, f 2 0x80000000] [cc true, pc 0x1004] := by decide +kernel

/-- V121: c.eq.s f1, f1 (NaN) -/
theorem test_c_eq_s_V121 :
    steps 0x46010832 [f 1 0x7FC00000, cc true] [cc false, pc 0x1004] := by decide +kernel

/-- V123: c.olt.s f1, f2 (-0, +0) -/
theorem test_c_olt_s_V123 :
    steps 0x46020834 [f 1 0x80000000, f 2 0, cc true] [cc false, pc 0x1004] := by decide +kernel

/-- V126: c.ueq.d f2, f4 (NaN, 1.0) -/
theorem test_c_ueq_d_V126 :
    steps 0x46241033 [f 2 0, f 3 0x7FF80000, f 4 0, f 5 0x3FF00000, cc true]
      [cc false, pc 0x1004] := by decide +kernel

/-- V129: c.un.d f2, f4 (NaN, 1.0) -/
theorem test_c_un_d_V129 :
    steps 0x46241031 [f 2 0, f 3 0x7FF80000, f 4 0, f 5 0x3FF00000]
      [cc true, pc 0x1004] := by decide +kernel

/-- V133: movz.s f2, f1, x3 (not taken, f1 never written) -/
theorem test_movz_s_V133 : steps 0x46030892 [x 3 1, f 2 0] [pc 0x1004] := by decide +kernel

/-- V134: movn.d f6, f2, x3 -/
theorem test_movn_d_V134 :
    steps 0x46231193 [x 3 1, f 2 0, f 3 0x40080000]
      [f 6 0, f 7 0x40080000, pc 0x1004] := by decide +kernel

/-- V137: movt.d f31, f2 (cc never written) -/
theorem test_movt_d_V137 :
    halts 0x462117D1 [f 2 0, f 3 0x3FF00000] (.doubleRegisterOutOfRange 31) := by decide +kernel

/-- V139: cvt.d.s f2, f1 (smallest subnormal) -/
theorem test_cvt_d_s_V139 :
    steps 0x460008A1 [f 1 1] [f 2 0, f 3 0x36A00000, pc 0x1004] := by decide +kernel

/-- V140: cvt.s.d f4, f2 (0.1) -/
theorem test_cvt_s_d_V140 :
    steps 0x46201120 [f 2 0x9999999A, f 3 0x3FB99999] [f 4 0x3DCCCCCD, pc 0x1004] := by decide +kernel

/-- V143: cvt.s.w f2, f1 (16777219) -/
theorem test_cvt_s_w_V143 :
    steps 0x468008A0 [f 1 0x1000003] [f 2 0x4B800002, pc 0x1004] := by decide +kernel

/-- V145: cvt.d.w f2, f1 (-1) -/
theorem test_cvt_d_w_V145 :
    steps 0x468008A1 [f 1 0xFFFFFFFF] [f 2 0, f 3 0xBFF00000, pc 0x1004] := by decide +kernel

/-- V148: cvt.w.d f4, f2 (2147483647.5) -/
theorem test_cvt_w_d_V148 :
    steps 0x46201124 [f 2 0xFFE00000, f 3 0x41DFFFFF] [f 4 0x7FFFFFFF, pc 0x1004] := by decide +kernel

/-- V151: round.w.s f2, f1 (-2.5) -/
theorem test_round_w_s_V151 :
    steps 0x4600088C [f 1 0xC0200000] [f 2 0xFFFFFFFE, pc 0x1004] := by decide +kernel

/-- V154: ceil.w.s f2, f1 (-0.5) -/
theorem test_ceil_w_s_V154 : steps 0x4600088E [f 1 0xBF000000] [f 2 0, pc 0x1004] := by decide +kernel

/-- V157: floor.w.d f4, f2 (-2.5) -/
theorem test_floor_w_d_V157 :
    steps 0x4620110F [f 2 0, f 3 0xC0040000] [f 4 0xFFFFFFFD, pc 0x1004] := by decide +kernel

/-- V162: mfhc1 x5, f2 (only f3 written) -/
theorem test_mfhc1_V162 :
    steps 0x44651000 [f 3 0x400921FB] [x 5 0x400921FB, pc 0x1004] := by decide +kernel

/-- V164: mflc1 x5, f31 (legal) -/
theorem test_mflc1_V164 :
    steps 0x4425F800 [f 31 0x12345678] [x 5 0x12345678, pc 0x1004] := by decide +kernel

/-- V165: mthc1 x5, f2 -/
theorem test_mthc1_V165 :
    steps 0x44E51000 [x 5 0x3FF00000, f 2 0] [f 3 0x3FF00000, pc 0x1004] := by decide +kernel

/-- V167: ldb x3, 8(x1) -/
theorem test_ldb_V167 :
    steps 0x80230008 [x 1 0x10010000, sample] [x 3 0xFFFFFF80, pc 0x1004] := by decide +kernel

/-- V169: ldh x3, 8(x1) -/
theorem test_ldh_V169 :
    steps 0x84230008 [x 1 0x10010000, sample] [x 3 0xFFFF8099, pc 0x1004] := by decide +kernel

/-- V172: ldw x3, -4(x1) -/
theorem test_ldw_V172 :
    steps 0x8C23FFFC [x 1 0x10010008, sample] [x 3 0x55667788, pc 0x1004] := by decide +kernel

/-- V176: ldwl x2, 1(x1) -/
theorem test_ldwl_V176 :
    steps 0x88220001 [x 1 0x10010000, x 2 0xAABBCCDD, sample]
      [x 2 0x223344DD, pc 0x1004] := by decide +kernel

/-- V181: ldwr x2, 2(x1) -/
theorem test_ldwr_V181 :
    steps 0x98220002 [x 1 0x10010000, x 2 0xAABBCCDD, sample]
      [x 2 0xAA112233, pc 0x1004] := by decide +kernel

/-- V183: stb x2, 1(x1) -/
theorem test_stb_V183 :
    steps 0xA0220001 [x 1 0x10010000, x 2 0xAABBCCDD, sample]
      [word 0x10010000 0x11DD3344, pc 0x1004] := by decide +kernel

/-- V187: stwl x2, 1(x1) -/
theorem test_stwl_V187 :
    steps 0xA8220001 [x 1 0x10010000, x 2 0xAABBCCDD, sample]
      [word 0x10010000 0x11AABBCC, pc 0x1004] := by decide +kernel

/-- V191: stwr x2, 1(x1) -/
theorem test_stwr_V191 :
    steps 0xB8220001 [x 1 0x10010000, x 2 0xAABBCCDD, sample]
      [word 0x10010000 0xCCDD3344, pc 0x1004] := by decide +kernel

/-- V195: sc x2, 0(x1) -/
theorem test_sc_V195 :
    steps 0xE0220000 [x 1 0x10010000, x 2 0xAABBCCDD, sample]
      [x 2 1, word 0x10010000 0xAABBCCDD, pc 0x1004] := by decide +kernel

/-- V197: ldc1 f3, 0(x1) (odd index) -/
theorem test_ldc1_V197 :
    steps 0xD4230000 [x 1 0x10010000, sample]
      [f 3 0x55667788, f 4 0x11223344, pc 0x1004] := by decide +kernel

/-- V199: ldc1 f31, 2(x1) (index 31 and misaligned) -/
theorem test_ldc1_V199 :
    halts 0xD43F0002 [x 1 0x10010000, sample] (.doubleRegisterOutOfRange 31) := by decide +kernel

/-- V201: swc1 f4, 2(x1) (f4 never written, misaligned) -/
theorem test_swc1_V201 :
    halts 0xE4240002 [x 1 0x10010000, sample] (.unwrittenState (.fpr 4)) := by decide +kernel

/-- V202: sdc1 f2, 0(x1) -/
theorem test_sdc1_V202 :
    steps 0xF4220000 [x 1 0x10010000, f 2 0x54442D18, f 3 0x400921FB, sample]
      [word 0x10010000 0x400921FB, word 0x10010004 0x54442D18, pc 0x1004] := by decide +kernel

/-- H3: cvt.w.s of a NaN gives the parameter's word. -/
theorem test_cvt_w_s_H3 : nextOf (exec (.cvtWS 3 1) (start [f 1 0x7FC00000])) =
    some (start [f 1 0x7FC00000, f 3 (Config.cvtWInvalid .cvtWS (.single 0x7FC00000)), pc 0x1004]) := by
  rfl

/-- H10: round.w.s with a mode that cannot be selected. -/
theorem test_round_w_s_H10 :
    halts 0x460008CC [f 1 0x40200000, unsettable] .roundingModeUnavailable := by decide +kernel

/-- H12: mul with both destinations 3 leaves one half of the product 15. -/
theorem test_mul_draw_H12 : ∃ v d, (v = 15#32 ∨ v = 0#32) ∧
    nextOf (exec (.mul 3 3 1 2) (start [x 1 3, x 2 5])) =
      some { start [x 1 3, x 2 5, x 3 v, pc 0x1004] with draws := d } := by
  refine ⟨if Config.draw 0 then 15#32 else 0#32, 1, by split <;> simp, ?_⟩
  rfl

/-- V203: a load outside `LaunchMemory` is stuck. -/
theorem test_stuck_access_V203 : exec (.ldb 3 0 1) (start [x 1 0x20000000, only 0x1000]) =
    .fault (.stuckAccess 0x20000000) := by rfl

/-- V204: a pc that is not a multiple of 4. -/
theorem test_misaligned_fetch_V204 : nextOf (step (start [pc 0x1002])) =
    some { start [pc 0x1002] with status := .halted .misalignedFetch 0x1002 none } := by decide +kernel

/-- V205: a word that is no instruction. -/
theorem test_reserved_V205 : halts 0xFC000000 [] .reservedInstruction := by decide +kernel

/-- V207: a word that a store of the run wrote. -/
theorem test_self_modifying_V207 :
    nextOf (step { fetching 0x20010001 [] with stored := [0x1003] }) =
      some { fetching 0x20010001 [] with
        stored := [0x1003], status := .halted .selfModifyingCode 0x1000 none } := by decide +kernel

/-- V208: a fetch outside `LaunchMemory` is stuck. -/
theorem test_stuck_fetch_V208 : step (start [only 0x2000]) = .fault (.stuckFetch 0x1000) := by rfl

/-- A syscall ends its step at the host (43_trap_system.md R312). -/
theorem test_syscall_hands_over :
    steps 0x0000000C [pc 0x3000, x 4 0x1387, x 5 0xB] [control (.host 0xC)] := by decide +kernel

/-- V96: the host's turn in a call that is not supported, number 4999. -/
theorem test_unsupported_call_V96 :
    turns [pc 0x3000, x 4 0x1387, x 5 0xB, x 6 0xC, x 7 0xD, x 8 0xE, x 9 0xF, control (.host 0xC)]
      [x 2 0xFFFFFFFF, x 4 0xB, x 5 0xC, x 6 0xD, x 7 1, x 8 0xF, control (.resume 0xC)] := by
  decide +kernel

/-- V98: the host's turn in a read for which the host returns -9; here it writes a byte as well. -/
theorem test_negative_call_V98 :
    turns [pc 0x3000, x 4 0xFA3, x 5 3, x 6 0x10010000, x 7 4, control (.host 0xC),
        reply (.returns 0xFFFFFFF7 [(0x10010000, 0x41)])]
      [x 2 0xFFFFFFF7, x 4 3, x 5 0x10010000, x 6 4, x 7 1, control (.resume 0xC), noReply,
        bytes 0x10010000 [0x41]] := by decide +kernel

/-- V100: the host's turn in the call exit(3). -/
theorem test_exit_call_V100 :
    turns [pc 0x3000, x 4 0xFA1, x 5 3, control (.host 0xC)] [exited 3, x 4 3, x 5 0] := by
  decide +kernel

/-- The host's own fatal condition, with a byte it wrote before (60_exceptions.md R495; log 30). -/
theorem test_fatal_call :
    turns [pc 0x3000, x 4 0xFA3, control (.host 0xC), reply (.fatal [(0x10010000, 0x41)])]
      [x 4 0, noReply, bytes 0x10010000 [0x41], halted .hostFatal 0x3000 0xC] := by decide +kernel

/-- V96 again: the resume after the call. -/
theorem test_resume_V96 :
    turns [pc 0x3000, control (.resume 0xC)] [pc 0x3004, control .block] := by decide +kernel

/-- The resume at 0 (43_trap_system.md R312, 41_control_flow.md R260). -/
theorem test_resume_at_0 :
    turns [pc 0xFFFFFFFC, x 2 5, control (.resume 0xC)] [halted .undefinedJumpTarget 0xFFFFFFFC 0xC] := by
  decide +kernel

/-- E6: the bootstrap of ["prog", "a"]. -/
theorem test_bootstrap_E6 :
    let t := probe.bootstrap ⟨0x7FFFFE00, 0x7FFFFDD8, 0x1000, [0xEE]⟩
      [[0x70, 0x72, 0x6F, 0x67], [0x61]]
    t.gpr[29] = 0x7FFFFDD8 ∧ t.gpr[4] = 2 ∧ t.gpr[5] = 0x7FFFFDDC ∧
      (List.range 8).map (fun k => t.byteAt (0x7FFFFE00 + BitVec.ofNat 32 k)) =
        [0x70, 0x72, 0x6F, 0x67, 0x00, 0x61, 0x00, 0xEE] ∧
      (List.range 9).map (fun k => t.wordAt (0x7FFFFDD8 + BitVec.ofNat 32 (4 * k))) =
        [2, 0x7FFFFE00, 0x7FFFFE05, 0, 0, 6, 0x1000, 0, 0] := by decide +kernel

/-- Two processes in frames one below the other, and none where the frames are the same
(70_reset_and_hazards.md R537). -/
theorem test_loader_R537 :
    let frame : Nat → BootFrame := fun k =>
      ⟨0x7FFFFE00 - BitVec.ofNat 32 (0x1000 * k), 0x7FFFFDD8 - BitVec.ofNat 32 (0x1000 * k), 0x1000, []⟩
    let again := fun layout : Nat → BootFrame =>
      (Loader.start.bootstrap layout 0x80000000 probe [[0x61]]).bind fun p =>
        p.1.bootstrap layout 0x80000000 p.2 [[0x62]]
    (again frame).map (fun p => (p.1.counter, p.2.byteAt 0x7FFFFE00, p.2.byteAt 0x7FFFEE00)) =
        some (2, 0x61, 0x62) ∧
      again (fun _ => frame 0) = none := by decide +kernel


/-! ## Witnesses: for each statement with hypotheses, a state and operands that meet them -/

/-- A state in which every marked register has been written. -/
def full : State :=
  { probe with
    hi := ⟨1#32, true⟩
    lo := ⟨2#32, true⟩
    cc := ⟨true, true⟩
    ldireg := ⟨5, true⟩
    ijmpreg := ⟨0x2000#32, true⟩
    fpr := Vector.replicate 32 ⟨0x3F800000#32, true⟩ }

/-- The full state with some changes. -/
def filled (l : List Change) : State := l.foldl (fun s c => c s) full

/-- The state after an instruction that has one. -/
def after (i : Instr) (s : State) : State := (nextOf (exec i s)).getD s

theorem exec_after {i : Instr} {s : State} (h : (nextOf (exec i s)).isSome = true) :
    exec i s = .next (after i s) := by
  unfold after
  cases hr : exec i s <;> simp_all [nextOf]

theorem witness_DecodeOfEncode : (Instr.ext 31 0 31 32).WellFormed = true := by decide

theorem witness_EncodeOfDecode : decode 0x7C1FFFC0#32 = .ok (.ext 31 0 31 32) := by decide +kernel

theorem witness_DecodingIsTheTable :
    (∃ r, opcodeTable[0]? = some r ∧ r.Matches 0x00221820#32 = true) ∧
      ∀ r ∈ opcodeTable, r.Matches 0xFFFFFFFF#32 = false := by decide +kernel

/-- At the last word of the address space. -/
theorem witness_StepRunsDecoded :
    let s := fetching 0x00221820 [pc 0xFFFFFFFC]
    s.status = .running ∧ s.control = .block ∧ s.pc.toNat % 4 = 0 ∧ s.Admits s.pc 4 ∧
      (s.emb.smcPolicy = .fault → ∀ k < 4, (s.pc + BitVec.ofNat 32 k).toNat ∉ s.stored) ∧
      decode (s.wordOf s.pc) = .ok (.add 3 1 2) := by
  unfold State.Admits
  decide +kernel

/-- After a host call, at the last pc from which the block resumes and at the one past it. -/
theorem witness_StepRunsDecoded_resume :
    let s := start [pc 0xFFFFFFF8, control (.resume 0xC)]
    let t := start [pc 0xFFFFFFFC, control (.resume 0xC)]
    s.status = .running ∧ s.control = .resume 0xC ∧ s.Advances ∧
      t.status = .running ∧ t.control = .resume 0xC ∧ ¬ t.Advances := by
  unfold State.Advances
  decide +kernel

theorem witness_FetchChecks_status : (start [exited 3]).status ≠ .running := by decide +kernel

theorem witness_FetchChecks_alignment :
    (start [pc 0x1001]).status = .running ∧ (start [pc 0x1001]).control = .block ∧
      (start [pc 0x1001]).pc.toNat % 4 ≠ 0 := by decide +kernel

theorem witness_FetchChecks_admission :
    (start [only 0x1004]).status = .running ∧ (start [only 0x1004]).control = .block ∧
      (start [only 0x1004]).pc.toNat % 4 = 0 ∧
      ¬ (start [only 0x1004]).Admits (start [only 0x1004]).pc 4 := by
  unfold State.Admits
  decide +kernel

theorem witness_FetchChecks_stored :
    let s := { start [pc 0] with stored := [3] }
    s.status = .running ∧ s.control = .block ∧ s.pc.toNat % 4 = 0 ∧ s.Admits s.pc 4 ∧ s.emb.smcPolicy = .fault ∧
      ∃ k < 4, (s.pc + BitVec.ofNat 32 k).toNat ∈ s.stored := by
  unfold State.Admits
  decide +kernel

theorem witness_FetchChecks_reserved :
    let s := fetching 0xFC000000 []
    s.status = .running ∧ s.control = .block ∧ s.pc.toNat % 4 = 0 ∧ s.Admits s.pc 4 ∧
      (s.emb.smcPolicy = .fault → ∀ k < 4, (s.pc + BitVec.ofNat 32 k).toNat ∉ s.stored) ∧
      ∀ r ∈ opcodeTable, r.Matches (s.wordOf s.pc) = false := by
  unfold State.Admits
  decide +kernel

theorem witness_WithFetchWordRuns :
    (start [exited 3, pc 3]).mem.wf ∧ (Instr.ext 2 1 31 1).WellFormed = true := by decide +kernel

/-- A fault of an instruction, a fault of the fetch, one at the resume, and the host's own. -/
theorem witness_FaultsArePrecise :
    (nextOf (step (fetching 0x0000000D []))).map State.status =
        some (.halted .break 0x1000 (some 0x0000000D)) ∧
      (nextOf (step (start [pc 0x1002]))).map State.status =
        some (.halted .misalignedFetch 0x1002 none) ∧
      (nextOf (step (start [pc 0xFFFFFFFC, control (.resume 0xC)]))).map State.status =
        some (.halted .undefinedJumpTarget 0xFFFFFFFC (some 0xC)) ∧
      (nextOf (step (start [x 4 4004, reply (.fatal []), control (.host 0xC)]))).map State.status =
        some (.halted .hostFatal 0x1000 (some 0xC)) := by decide +kernel

theorem witness_StepKeepsInv :
    (fetching 0xA0220000 [x 1 0xFFFFFFFF]).Inv ∧ ∃ t, step (fetching 0xA0220000 [x 1 0xFFFFFFFF]) = .next t :=
  ⟨⟨by decide +kernel, by decide +kernel, by decide +kernel⟩, exists_next (by decide +kernel)⟩

theorem witness_SpecialRegisterWriters :
    (∃ t, exec (.add 3 1 2) full = .next t) ∧ (Instr.add 3 1 2).isComparison = false ∧
      (Instr.add 3 1 2).isLdi = false ∧ (Instr.add 3 1 2).isIjmphi = false ∧
      full.isWritten (.fpr 31) = true :=
  ⟨exists_next (by decide +kernel), by decide +kernel⟩

/-- ldihi, whose destination is in ldireg. -/
theorem witness_GprFrame :
    (∃ t, exec (.ldihi 1) full = .next t) ∧ (31 : Gpr) ∉ (Instr.ldihi 1).gprDests full :=
  ⟨exists_next (by decide +kernel), by decide +kernel⟩

/-- mthc1 at index 0, which writes slot 1. -/
theorem witness_SlotFrame :
    (∃ t, exec (.mthc1 1 0) full = .next t) ∧ (0 : Fpr) ∉ (Instr.mthc1 1 0).slotDests :=
  ⟨exists_next (by decide +kernel), by decide +kernel⟩

/-- A store at the end of the address space, and the byte below and the byte past it; and a load. -/
theorem witness_MemoryFrame :
    let i := Instr.stw 2 0 1
    let s := filled [x 1 0xFFFFFFFC, x 2 7]
    (∃ t, exec i s = .next t) ∧
      (∀ k < (i.storeRun s).2, 0xFFFFFFFB#32 ≠ (i.storeRun s).1 + BitVec.ofNat 32 k) ∧
      (∀ k < (i.storeRun s).2, 0#32 ≠ (i.storeRun s).1 + BitVec.ofNat 32 k) ∧
      (∃ t, exec (.ldw 2 0 1) s = .next t) ∧ ((Instr.ldw 2 0 1).storeRun s).2 = 0 :=
  ⟨exists_next (by decide +kernel), by decide +kernel, by decide +kernel,
    exists_next (by decide +kernel), by decide +kernel⟩

/-- The last pc from which the block resumes after a host call. -/
theorem witness_NextPcNotZero_step :
    (nextOf (step (start [pc 0xFFFFFFF8, control (.resume 0xC)]))).map
      (fun t => (t.status, t.control)) = some (.running, .block) := by decide +kernel

theorem witness_NextPcNotZero :
    let s := filled [pc 0xFFFFFFFC]
    (Instr.add 3 1 2).transfers = false ∧ (Instr.add 3 1 2).isSyscall = false ∧ s.pc + 4#32 = 0#32 ∧
      0xFFFFFFF8#32 + 4#32 ≠ 0#32 ∧
      exec (.add 3 1 2) { s with pc := 0xFFFFFFF8#32 } =
        .next (after (.add 3 1 2) { s with pc := 0xFFFFFFF8#32 }) ∧
      (after (.add 3 1 2) { s with pc := 0xFFFFFFF8#32 }).status = .running :=
  ⟨by decide, by decide, by decide +kernel, by decide, exec_after (by decide +kernel),
    by decide +kernel⟩

theorem witness_TargetsStayAligned :
    (Instr.jump 1).takesAnyTarget = false ∧ full.pc.toNat % 4 = 0 ∧ ∃ t, exec (.jump 1) full = .next t :=
  ⟨by decide, by decide +kernel, exists_next (by decide +kernel)⟩

/-- The largest pc of which the next is not 0: RegisterArithmetic, Immediates, ShiftsAndRotates and
BitManipulation ask for nothing else. -/
theorem witness_Advances : (filled [pc 0xFFFFFFF8]).Advances ∧ (filled [pc 0]).Advances := by
  unfold State.Advances
  decide +kernel

theorem witness_MultiplyReconstructs :
    full.Advances ∧ (31 : Gpr) ≠ 0 ∧ (1 : Gpr) ≠ 0 ∧ (31 : Gpr) ≠ 1 := by
  unfold State.Advances
  decide +kernel

theorem witness_Divide :
    (filled []).gpr[(2 : Gpr)] = 0#32 ∧
      (filled [x 1 0x80000000, x 2 0xFFFFFFFF]).gpr[(1 : Gpr)] = 0x80000000#32 ∧
      (filled [x 1 0x80000000, x 2 0xFFFFFFFF]).gpr[(2 : Gpr)] = 0xFFFFFFFF#32 := by decide +kernel

theorem witness_Divide_quotient :
    let s := filled [x 1 0x80000000, x 2 1]
    s.Advances ∧ (3 : Gpr) ≠ 0 ∧ (4 : Gpr) ≠ 0 ∧ (3 : Gpr) ≠ 4 ∧ s.gpr[(2 : Gpr)] ≠ 0#32 ∧
      ¬ (s.gpr[(1 : Gpr)] = 0x80000000#32 ∧ s.gpr[(2 : Gpr)] = 0xFFFFFFFF#32) ∧
      0 ≤ (filled [x 1 7]).gpr[(1 : Gpr)].toInt ∧ s.gpr[(1 : Gpr)].toInt ≤ 0 := by
  unfold State.Advances
  decide +kernel

theorem witness_DiscardAndDraw :
    let s := filled [x 1 0x80000000, x 2 1]
    let i : Gpr → Gpr → Instr := fun rd rh => .div rd rh 1 2
    s.Advances ∧ i = (fun rd rh => .div rd rh 1 2) ∧ s.gpr[(2 : Gpr)] ≠ 0#32 ∧
      ¬ (s.gpr[(1 : Gpr)] = 0x80000000#32 ∧ s.gpr[(2 : Gpr)] = 0xFFFFFFFF#32) := by
  unfold State.Advances
  exact ⟨by decide +kernel, rfl, by decide +kernel, by decide +kernel⟩

theorem witness_ExtractField :
    (Instr.ext 2 1 31 2).WellFormed = true ∧ 32 < 31 + 2 ∧ (Instr.ext 2 1 31 1).WellFormed = true ∧
      31 + 1 ≤ 32 ∧ full.Advances := by
  unfold State.Advances
  decide +kernel

theorem witness_ConditionalMoves :
    full.Advances ∧ full.cc.written = true ∧ probe.cc.written = false := by
  unfold State.Advances
  decide +kernel

theorem witness_Jumps :
    (full.pc + 4#32).extractLsb' 28 4 ++ 1#26 ++ 0#2 ≠ 0#32 ∧
      (full.pc + 4#32).extractLsb' 28 4 ++ 0#26 ++ 0#2 = 0#32 ∧
      (filled [x 1 1]).gpr[(1 : Gpr)] ≠ 0#32 ∧ full.gpr[(1 : Gpr)] = 0#32 := by decide +kernel

theorem witness_Calls :
    (∃ imm : BitVec 26, Instr.call 1 = .call imm ∧
      0x00000004#32 = (full.pc + 4#32).extractLsb' 28 4 ++ imm ++ 0#2) ∧
    (∃ rs : Gpr, Instr.callr 31 = .callr rs ∧ 0#32 = full.gpr[rs]) ∧
    ∃ imm : BitVec 16, Instr.rcall 0xFFFF = .rcall imm ∧
      0x1000#32 = full.pc + 4#32 + (imm.signExtend 32 <<< 2) :=
  ⟨⟨1, rfl, by decide +kernel⟩, ⟨31, rfl, by decide +kernel⟩, ⟨0xFFFF, rfl, by decide +kernel⟩⟩

/-- jeq of equal registers is taken, and from pc 4 the target is 0; jne of them is not. -/
theorem witness_RegisterBranches :
    let s := filled [pc 4]
    (Instr.jeq 1 2 0xFFFE = .jeq 1 2 0xFFFE ∧ (True ↔ s.gpr[(1 : Gpr)] = s.gpr[(2 : Gpr)])) ∧
      0#32 = s.pc + 4#32 + (BitVec.signExtend 32 0xFFFE#16 <<< 2) ∧
      (Instr.jne 1 2 1 = .jne 1 2 1 ∧ (False ↔ s.gpr[(1 : Gpr)] ≠ s.gpr[(2 : Gpr)])) ∧
      8#32 = s.pc + 4#32 ∧ (8#32 : Word) ≠ 0#32 := by decide +kernel

theorem witness_ConditionBranches :
    (Instr.bc1t 1 = .bc1t 1 ∧ true = true) ∧ probe.cc.written = false ∧ full.cc.written = true ∧
      full.cc.val = true ∧ 0x1008#32 = full.pc + 4#32 + (BitVec.signExtend 32 1#16 <<< 2) := by
  decide +kernel

theorem witness_PendingRegisters : full.Advances ∧ full.ldireg.written = true := by
  unfold State.Advances
  decide +kernel

theorem witness_TableJump_unwritten : probe.ijmpreg.written = false := by decide +kernel

theorem witness_TableJump_misaligned :
    full.ijmpreg.written = true ∧
      ((full.ijmpreg.val ||| (2#12 : BitVec 12).setWidth 32) + full.gpr[(1 : Gpr)] * 4#32).toNat % 4 ≠ 0 := by
  decide +kernel

theorem witness_TableJump_stuck :
    let s := filled [only 0x1000]
    let a : Word := (s.ijmpreg.val ||| (0#12 : BitVec 12).setWidth 32) + s.gpr[(1 : Gpr)] * 4#32
    s.ijmpreg.written = true ∧ a.toNat % 4 = 0 ∧ ¬ s.Admits a 4 := by
  unfold State.Admits
  decide +kernel

theorem witness_TableJump :
    let s := filled [x 1 0xFFFFFFFF, word 0x1FFC 0x40]
    let a : Word := (s.ijmpreg.val ||| (0#12 : BitVec 12).setWidth 32) + s.gpr[(1 : Gpr)] * 4#32
    s.ijmpreg.written = true ∧ a.toNat % 4 = 0 ∧ s.Admits a 4 ∧ s.wordOf a ≠ 0#32 ∧
      full.Admits 0x2000 4 ∧ full.wordOf 0x2000 = 0#32 := by
  unfold State.Admits
  decide +kernel

theorem witness_SplitLoadPair :
    let i := Instr.ldi 6 ((0xDEADBEEF#32 : Word).extractLsb' 0 14)
    let j := Instr.ldihi ((0xDEADBEEF#32 : Word).extractLsb' 14 18)
    exec i full = .next (after i full) ∧ (after i full).status = .running ∧
      exec j (after i full) = .next (after j (after i full)) ∧
      (after j (after i full)).status = .running :=
  ⟨exec_after (by decide +kernel), by decide +kernel, exec_after (by decide +kernel),
    by decide +kernel⟩

theorem witness_TrapAndBreak :
    full.gpr[(1 : Gpr)] = full.gpr[(2 : Gpr)] ∧
      (filled [x 1 1]).gpr[(1 : Gpr)] ≠ (filled [x 1 1]).gpr[(2 : Gpr)] ∧ (filled [x 1 1]).Advances := by
  unfold State.Advances
  decide +kernel

theorem witness_SyscallAndUnsupportedCall :
    let s := filled [control (.host 0xC)]
    let t := filled [x 4 4108, control (.host 0xC)]
    s.status = .running ∧ s.control = .host 0xC ∧ s.gpr[(4 : Gpr)] ∉ s.emb.supportedSyscalls ∧
      t.status = .running ∧ t.control = .host 0xC ∧ t.gpr[(4 : Gpr)] = t.emb.fstatNr := by
  decide +kernel

/-- The byte at 0 is written twice and the last write stays; the one at 0x2000 is not admitted. -/
theorem witness_SupportedCall :
    let writes : List (Word × Byte) := [(0, 1), (0x2000, 2), (0, 3)]
    let s := filled [x 4 4004, only 0, reply (.returns 5 writes), control (.host 0xC)]
    s.status = .running ∧ s.control = .host 0xC ∧ s.gpr[(4 : Gpr)] ∈ s.emb.supportedSyscalls ∧
      s.gpr[(4 : Gpr)] ≠ s.emb.fstatNr ∧ s.gpr[(4 : Gpr)] ≠ s.emb.exitNr ∧
      s.hostReplies = .returns 5 writes :: [] ∧ s.mem.wf ∧ 1#32 ∉ writes.map Prod.fst ∧
      s.admits 0x2000 = false ∧ writes = [(0, 1), (0x2000, 2)] ++ (0, 3) :: [] ∧
      0#32 ∉ ([] : List (Word × Byte)).map Prod.fst ∧ s.admits 0 = true ∧
      (filled [x 4 4004, control (.host 0xC)]).hostReplies = [] := by decide +kernel

theorem witness_CallEndsRun :
    let s := filled [x 4 4001, x 5 0xFFFFFFFF, control (.host 0xC)]
    let r := filled [x 4 4003, reply (.fatal [(0, 1)]), control (.host 0xC)]
    s.status = .running ∧ s.control = .host 0xC ∧ s.gpr[(4 : Gpr)] ∈ s.emb.supportedSyscalls ∧
      s.gpr[(4 : Gpr)] ≠ s.emb.fstatNr ∧ s.gpr[(4 : Gpr)] = s.emb.exitNr ∧
      r.status = .running ∧ r.control = .host 0xC ∧ r.gpr[(4 : Gpr)] ∈ r.emb.supportedSyscalls ∧
      r.gpr[(4 : Gpr)] ≠ r.emb.fstatNr ∧ r.gpr[(4 : Gpr)] ≠ r.emb.exitNr ∧
      r.hostReplies = .fatal [(0, 1)] :: [] ∧ r.mem.wf ∧ r.admits 0 = true := by decide +kernel

/-- SingleArithmetic, SignOperations, Comparisons, RawTransfers and HalvesAndOverlay, the clauses on
single slots. -/
theorem witness_single_slots :
    full.Advances ∧ full.HasS 0 ∧ full.HasS 31 ∧ full.HasS 1 ∧ ¬ probe.HasS 31 := by
  unfold State.Advances State.HasS
  decide +kernel

/-- DoubleArithmetic, SignOperations, Comparisons and HalvesAndOverlay, the clauses on doubles. -/
theorem witness_double_slots :
    full.Advances ∧ (30 : Fpr) ≠ 31 ∧ (0 : Fpr) ≠ 31 ∧ full.HasD 30 ∧ full.HasD 0 ∧
      full.HasS ((30 : Fpr) + 1) := by
  unfold State.Advances State.HasD State.HasS
  decide +kernel

theorem witness_RoundingIsNearestEven : (Fmt.single = .single ∨ Fmt.single = .double) ∧ 0 < 3 := by
  decide

/-- One and the smallest subnormal: the sum, the difference, the product and the fused sum differ
from 0. -/
theorem witness_SumsAndProductsRounded :
    let a := FpVal.fin false (2 ^ 149)
    let b := FpVal.fin true 1
    Fmt.single.rat a + Fmt.single.rat b ≠ 0 ∧ Fmt.single.rat a - Fmt.single.rat b ≠ 0 ∧
      Fmt.single.rat a * Fmt.single.rat b ≠ 0 ∧
      Fmt.single.rat a * Fmt.single.rat b + Fmt.single.rat b ≠ 0 := by
  norm_num [Fmt.rat, Fmt.single, signed]

theorem witness_QuotientsAndRootsRounded :
    (Fmt.double = .single ∨ Fmt.double = .double) ∧ 1 ≠ 0 ∧ 3 ≠ 0 := by decide

/-- 1 * -1 + 1 in units of 2^-149, a factor that is not 0, and the two forms of the addend. -/
theorem witness_SpecialValues :
    Fmt.single.rat (.fin false (2 ^ 149)) * Fmt.single.rat (.fin true (2 ^ 149)) +
        Fmt.single.rat (.fin false (2 ^ 149)) = 0 ∧
      1 ≠ 0 ∧ (∃ k, FpVal.fin true 5 = .fin true k) ∧ FpVal.inf true = .inf (false != true) := by
  refine ⟨?_, by decide, ⟨5, rfl⟩, by decide⟩
  norm_num [Fmt.rat, Fmt.single, signed]

theorem witness_SlotConditionalMoves :
    let i := Instr.movzS 4 2 0
    let j := Instr.movzD 4 2 0
    (i = .movzS 4 2 0 ∧ j = .movzD 4 2 0 ∧ (True ↔ full.gpr[(0 : Gpr)] = 0#32)) ∧
      (i = .movzS 4 2 0 ∧ j = .movzD 4 2 0 ∧ (False ↔ (filled [x 0 1]).gpr[(0 : Gpr)] = 0#32)) ∧
      full.Advances ∧ full.HasS 2 ∧ (4 : Fpr) ≠ 31 ∧ (2 : Fpr) ≠ 31 ∧ full.HasD 2 ∧ ¬ probe.HasS 2 ∧
      ¬ probe.HasD 2 := by
  unfold State.Advances State.HasD State.HasS
  decide +kernel

theorem witness_SlotConditionalMoves_cc :
    (Instr.movtS 4 2 = .movtS 4 2 ∧ Instr.movtD 4 2 = .movtD 4 2 ∧ full.cc.written = true ∧
      (True ↔ full.cc.val = true)) ∧
    (Instr.movfS 4 2 = .movfS 4 2 ∧ Instr.movfD 4 2 = .movfD 4 2 ∧ full.cc.written = true ∧
      (False ↔ full.cc.val = false)) := by decide +kernel

theorem witness_Conversions :
    full.Advances ∧ full.HasS 31 ∧ (30 : Fpr) ≠ 31 ∧ full.emb.roundModeSettable = true ∧
      full.HasD 30 := by
  unfold State.Advances State.HasD State.HasS
  decide +kernel

/-- The largest word and the next integer, as values in units of 2^-149. -/
theorem witness_ConversionValues :
    valueS 0x00000001#32 = .fin false 1 ∧ 1 ≠ 0 ∧
      (2147483647 : ℤ) = ⌊Fmt.single.rat (.fin false (2147483647 * 2 ^ 149))⌋ ∧
      ((-2 : ℤ) ^ 31 ≤ 2147483647 ∧ (2147483647 : ℤ) ≤ 2 ^ 31 - 1) ∧
      (2147483648 : ℤ) = ⌊Fmt.single.rat (.fin false (2147483648 * 2 ^ 149))⌋ ∧
      (2 : ℤ) ^ 31 - 1 < 2147483648 := by
  refine ⟨by decide +kernel, by decide, ?_, by decide, ?_, by decide⟩ <;>
    norm_num [Fmt.rat, Fmt.single, signed]

theorem witness_RawTransfers : full.Advances ∧ full.HasS 31 ∧ ¬ probe.HasS 31 := by
  unfold State.Advances State.HasS
  decide +kernel

theorem witness_HalvesAndOverlay :
    full.Advances ∧ (30 : Fpr) ≠ 31 ∧ full.HasS ((30 : Fpr) + 1) ∧ full.HasS 31 ∧
      (0 : Fpr) ≠ 30 ∧ (0 : Fpr) ≠ 30 + 1 := by
  unfold State.Advances State.HasS
  decide +kernel

theorem witness_OperandChecks :
    (31 : Fpr) ∈ (Instr.movzD 0 31 1).doubleIndices ∧
      ((31 : Fpr) ∉ (Instr.roundWD 31 30).doubleIndices ∧
        (start [unsettable]).emb.roundModeSettable = false) ∧
      (31 : Fpr) ∉ (Instr.mfhc1 1 30).doubleIndices ∧ probe.emb.roundModeSettable = true ∧
      (∃ m ∈ (Instr.mfhc1 1 30).markedReads, probe.isWritten m = false) := by decide +kernel

theorem witness_ByteLoads :
    let s := filled [x 1 0xFFFFFFFF]
    let t := filled [only 0x1000]
    s.Advances ∧ s.Admits (s.gpr[(1 : Gpr)] + BitVec.signExtend 32 0#16) 1 ∧
      ¬ t.Admits (t.gpr[(1 : Gpr)] + BitVec.signExtend 32 0#16) 1 := by
  unfold State.Advances State.Admits
  decide +kernel

/-- AlignedLoads and Stores, at the last aligned addresses of the address space. -/
theorem witness_aligned_access :
    let s := filled [x 1 0xFFFFFFFC]
    let half := s.gpr[(1 : Gpr)] + BitVec.signExtend 32 2#16
    let ea := s.gpr[(1 : Gpr)] + BitVec.signExtend 32 0#16
    s.Advances ∧ s.mem.wf ∧ half.toNat % 2 = 0 ∧ s.Admits half 2 ∧ ea.toNat % 4 = 0 ∧ s.Admits ea 4 ∧
      s.Admits ea 8 ∧ s.Admits ea 1 ∧ s.HasS 31 ∧ (30 : Fpr) ≠ 31 ∧ s.HasD 30 := by
  unfold State.Advances State.Admits State.HasS State.HasD
  decide +kernel

theorem witness_UnalignedAccess :
    let s := filled [x 1 0xFFFFFFFF]
    s.Advances ∧ s.mem.wf ∧
      s.Admits ((s.gpr[(1 : Gpr)] + BitVec.signExtend 32 0#16) &&& 0xFFFFFFFC#32) 4 := by
  unfold State.Advances State.Admits
  decide +kernel

theorem witness_DataAccessChecks_misaligned :
    (31 : Fpr) ∉ (Instr.sdc1 30 2 1).doubleIndices ∧
      (∀ m ∈ (Instr.sdc1 30 2 1).markedReads, full.isWritten m = true) ∧
      (Instr.sdc1 30 2 1).alignedAccess full = some (2#32, 4) ∧ (2#32 : Word).toNat % 4 ≠ 0 := by
  decide +kernel

/-- The first word of a double is admitted and the second is not. -/
theorem witness_DataAccessChecks_stuck :
    let s := filled [only 0]
    (31 : Fpr) ∉ (Instr.ldc1 30 0 1).doubleIndices ∧
      (∀ m ∈ (Instr.ldc1 30 0 1).markedReads, s.isWritten m = true) ∧
      (Instr.ldc1 30 0 1).alignedAccess s = some (0#32, 4) ∧
      ¬ s.Admits ((Instr.ldc1 30 0 1).accessRun s).1 ((Instr.ldc1 30 0 1).accessRun s).2 := by
  unfold State.Admits
  decide +kernel

/-- E2: stwl then ldwl over the low byte, and stwr then ldwr over the high bytes. -/
theorem witness_UnalignedPairLaws_round_trip :
    let s := filled [x 1 0x10010000, x 2 0xAABBCCDD, x 3 0x000000DD, x 5 0xAABB0000, sample]
    let t := after (.stwl 2 1 1) s
    let t' := after (.stwr 2 1 1) s
    s.mem.wf ∧ exec (.stwl 2 1 1) s = .next t ∧ t.status = .running ∧
      exec (.ldwl 3 1 1) t = .next (after (.ldwl 3 1 1) t) ∧
      (after (.ldwl 3 1 1) t).status = .running ∧
      (∀ k < 8, t.gpr[(3 : Gpr)].getLsbD k = s.gpr[(2 : Gpr)].getLsbD k) ∧
      exec (.stwr 2 1 1) s = .next t' ∧ t'.status = .running ∧
      exec (.ldwr 5 1 1) t' = .next (after (.ldwr 5 1 1) t') ∧
      (after (.ldwr 5 1 1) t').status = .running ∧
      ∀ k < 32, 16 ≤ k → t'.gpr[(5 : Gpr)].getLsbD k = s.gpr[(2 : Gpr)].getLsbD k :=
  ⟨by decide +kernel, exec_after (by decide +kernel), by decide +kernel, exec_after (by decide +kernel),
    by decide +kernel, by decide +kernel, exec_after (by decide +kernel), by decide +kernel,
    exec_after (by decide +kernel), by decide +kernel, by decide +kernel⟩

/-- The pair over the four bytes that wrap at the end of the address space. -/
theorem witness_UnalignedPairLaws_pair :
    let s := filled [x 1 0xFFFFFFFE, x 2 0xAABBCCDD]
    let t := after (.ldwl 2 0 1) s
    let t' := after (.stwl 2 0 1) s
    s.mem.wf ∧ exec (.ldwl 2 0 1) s = .next t ∧ t.status = .running ∧
      t.gpr[(1 : Gpr)] + BitVec.signExtend 32 3#16 = 0xFFFFFFFE#32 + 3#32 ∧
      exec (.ldwr 2 3 1) t = .next (after (.ldwr 2 3 1) t) ∧
      (after (.ldwr 2 3 1) t).status = .running ∧
      exec (.stwl 2 0 1) s = .next t' ∧ t'.status = .running ∧
      exec (.stwr 2 3 1) t' = .next (after (.stwr 2 3 1) t') ∧
      (after (.stwr 2 3 1) t').status = .running :=
  ⟨by decide +kernel, exec_after (by decide +kernel), by decide +kernel, by decide +kernel,
    exec_after (by decide +kernel), by decide +kernel, exec_after (by decide +kernel),
    by decide +kernel, exec_after (by decide +kernel), by decide +kernel⟩

theorem witness_Inspection :
    full.lo.written = true ∧ full.hi.written = true ∧ 32 ≤ 32 ∧ 32 ≠ 33 ∧ 32 ≠ 34 ∧ 32 ≠ 37 := by
  decide +kernel

/-- A table that just fits with its fill, and one that does not. -/
theorem witness_Bootstrap :
    let f : BootFrame := ⟨0xFFFFFE00, 0xFFFFFDD0, 0x1000, [1]⟩
    probe.mem.wf ∧ f.fits (2 ^ 32) 2 = true ∧ 2 ^ 32 ≤ 2 ^ 32 ∧
      ([List.replicate 255 1#8, List.replicate 255 1#8].flatMap (fun str => str ++ [0#8])).length ≤ 512 ∧
      512 < ([List.replicate 256 1#8, List.replicate 255 1#8].flatMap
        (fun str => str ++ [0#8])).length ∧
      ([List.replicate 255 1#8, List.replicate 254 1#8].flatMap (fun str => str ++ [0#8])).length + 0 <
        512 ∧ 0 < f.fill.length := by decide +kernel

/-- The byte below the image and the one below the table. -/
theorem witness_Bootstrap_outside :
    ∀ a ∈ [0xFFFFFDCF#32, 0xFFFFFDFF#32], (∀ k < 512, a ≠ 0xFFFFFE00#32 + BitVec.ofNat 32 k) ∧
      ∀ k < 28 + 4 * 2, a ≠ 0xFFFFFDD0#32 + BitVec.ofNat 32 k := by
  intro a ha
  simp only [List.mem_cons, List.not_mem_nil, or_false] at ha
  rcases ha with rfl | rfl <;> constructor <;> intro k hk <;> bv_omega

/-- A second process, whose table ends where the stack image of the first begins. -/
theorem witness_Bootstrap_loader :
    let frame : Nat → BootFrame := fun k => if k = 0 then ⟨0x7FFFFE00, 0x7FFFFDD8, 0x1000, []⟩
      else ⟨0x7FFFFBD8, 0x7FFFFBB8, 0x1000, []⟩
    let l : Loader := ⟨[⟨frame 0, 1⟩]⟩
    l.Ok 0x80000000 ∧ ∃ p, l.bootstrap frame 0x80000000 probe [[0x61]] = some p :=
  ⟨⟨by decide, List.pairwise_singleton _ _⟩, Option.isSome_iff_exists.1 (by decide +kernel)⟩

end Sys2Proof.Tests
end

section
/-! The host call: what the shift-down and the two result registers leave in each general register
(60_exceptions.md R507), the host's turn for a call it does not perform (R509), and O35. -/

namespace Sys2Proof.Machine

/-- The host performs a call just when its number is in the table and is not the fstat number. -/
theorem State.supports_eq_true_iff (s : State) (n : Word) :
    s.supports n = true ↔ n ∈ s.emb.supportedSyscalls ∧ n ≠ s.emb.fstatNr := by
  simp [State.supports]

/-- A call is not supported when its number is outside the table or is the fstat number. -/
theorem State.supports_eq_false_iff (s : State) (n : Word) :
    s.supports n = false ↔ n ∉ s.emb.supportedSyscalls ∨ n = s.emb.fstatNr := by
  rw [← Bool.not_eq_true, State.supports_eq_true_iff, not_and_or, not_not]

/-! ### The shift-down, read register by register (60_exceptions.md R507) -/

/-- Each of the five registers takes the old value of the next one. -/
theorem State.shiftDown_gpr_arg (s : State) (q : Gpr) (hq : q ∈ ([4, 5, 6, 7, 8] : List Gpr)) :
    s.shiftDown.gpr[q] = s.gpr[q + 1] := by
  simp only [List.mem_cons, List.not_mem_nil, or_false] at hq
  rcases hq with rfl | rfl | rfl | rfl | rfl <;> simp [State.shiftDown_gpr]

/-- The shift-down keeps every register but those five. -/
theorem State.shiftDown_gpr_ne (s : State) (q : Gpr) (hq : q ∉ ([4, 5, 6, 7, 8] : List Gpr)) :
    s.shiftDown.gpr[q] = s.gpr[q] := by
  simp only [List.mem_cons, List.not_mem_nil, or_false, not_or] at hq
  obtain ⟨h4, h5, h6, h7, h8⟩ := hq
  rw [State.shiftDown_gpr, gpr_set_ne _ _ _ _ h8, gpr_set_ne _ _ _ _ h7, gpr_set_ne _ _ _ _ h6,
    gpr_set_ne _ _ _ _ h5, gpr_set_ne _ _ _ _ h4]

/-! ### The result registers (10_state.md R43) -/

theorem State.hostReturn_gpr_two (s : State) (r flag : Word) :
    (s.hostReturn r flag).gpr[(2 : Gpr)] = r := by
  simp

theorem State.hostReturn_gpr_seven (s : State) (r flag : Word) :
    (s.hostReturn r flag).gpr[(7 : Gpr)] = flag := by
  simp

/-- A return keeps every register but the two results. -/
theorem State.hostReturn_gpr_ne (s : State) (r flag : Word) (q : Gpr) (h2 : q ≠ 2) (h7 : q ≠ 7) :
    (s.hostReturn r flag).gpr[q] = s.gpr[q] := by
  rw [State.hostReturn_gpr, gpr_set_ne _ _ _ _ h7, gpr_set_ne _ _ _ _ h2]

/-- The registers after a call that returns `r` and `flag`: the results, the arguments moved down,
and all others as they were. Only the register file `g` matters, so it also serves a call that writes
memory in between. -/
theorem State.gpr_of_returned (s : State) (r flag : Word) (g : Vector Word 32)
    (hg : g = (s.shiftDown.hostReturn r flag).gpr) :
    g[(2 : Gpr)] = r ∧ g[(7 : Gpr)] = flag ∧
      g[(4 : Gpr)] = s.gpr[(5 : Gpr)] ∧ g[(5 : Gpr)] = s.gpr[(6 : Gpr)] ∧
      g[(6 : Gpr)] = s.gpr[(7 : Gpr)] ∧ g[(8 : Gpr)] = s.gpr[(9 : Gpr)] ∧
      ∀ q : Gpr, q ∉ ([2, 4, 5, 6, 7, 8] : List Gpr) → g[q] = s.gpr[q] := by
  subst hg
  have moved (q : Gpr) (hq : q ∈ ([4, 5, 6, 8] : List Gpr)) :
      (s.shiftDown.hostReturn r flag).gpr[q] = s.gpr[q + 1] := by
    have hne : q ≠ 2 ∧ q ≠ 7 ∧ q ∈ ([4, 5, 6, 7, 8] : List Gpr) := by revert q; decide
    obtain ⟨h2, h7, hargs⟩ := hne
    rw [State.hostReturn_gpr_ne _ _ _ q h2 h7, s.shiftDown_gpr_arg q hargs]
  have kept (q : Gpr) (hq : q ∉ ([2, 4, 5, 6, 7, 8] : List Gpr)) :
      (s.shiftDown.hostReturn r flag).gpr[q] = s.gpr[q] := by
    have hne : q ≠ 2 ∧ q ≠ 7 ∧ q ∉ ([4, 5, 6, 7, 8] : List Gpr) := by revert q; decide
    obtain ⟨h2, h7, hargs⟩ := hne
    rw [State.hostReturn_gpr_ne _ _ _ q h2 h7, s.shiftDown_gpr_ne q hargs]
  exact ⟨State.hostReturn_gpr_two .., State.hostReturn_gpr_seven .., moved 4 (by decide),
    moved 5 (by decide), moved 6 (by decide), moved 8 (by decide), kept⟩

/-! ### The turns -/

/-- A syscall hands over the state as it is, with its own word (43_trap_system.md R312). -/
theorem exec_syscall (s : State) (code : BitVec 20) :
    exec (.syscall code) s = .next { s with control := .host (encode (.syscall code)) } := rfl

/-- The host's turn for a call it does not perform: -1 and the error flag (60_exceptions.md R509). -/
theorem hostTurn_unsupported (word : Word) (s : State) (h : s.supports s.gpr[(4 : Gpr)] = false) :
    hostTurn word s =
      .next { s.shiftDown.hostReturn 0xFFFFFFFF#32 1#32 with control := .resume word } := by
  have hrefused : (!s.supports (s.readGpr 4)) = true := congrArg not h
  exact if_pos hrefused

/-- Settles O35: the handover is the syscall's meaning, and the refused call shifts the arguments down
and then writes the two results, which touches general registers alone. -/
theorem syscallAndUnsupportedCall : Obligations.SyscallAndUnsupportedCall := by
  refine ⟨exec_syscall, fun s word hrun hhost hcall => ?_⟩
  have hturn := hostTurn_unsupported word s ((s.supports_eq_false_iff _).2 hcall)
  exact ⟨_, (step_host s word hrun hhost).trans hturn, rfl, s.gpr_of_returned _ _ _ rfl⟩

end Sys2Proof.Machine
end

section
/-! What one instruction can do, said once: the writes it is allowed, the next pcs it can name, and the
three ways it ends. The frames of the registers follow from it by induction over the writes. -/

namespace Sys2Proof.Machine

/-! ### The writes of an instruction -/

/-- `u` is `s` after writes that the instruction `i`, begun in `s`, may do: to its general registers and
its slots (10_state.md R44, R52), to cc, ldireg or ijmpreg where it is their writer (R49, R54, R55), and
to admitted bytes of its store (20_memory.md R102); it may also draw free values (log 10). -/
inductive Writes (i : Instr) (s : State) : State → Prop
  | none : Writes i s s
  | gpr {u : State} {r : Gpr} {v : Word} (hu : Writes i s u) (hr : r ∈ i.gprDests s) :
      Writes i s (u.writeGpr r v)
  | slot {u : State} {j : Fpr} {b : Word} (hu : Writes i s u) (hj : j ∈ i.slotDests) :
      Writes i s (u.writeS j b)
  | cc {u : State} {b : Bool} (hu : Writes i s u) (hi : i.isComparison = true) :
      Writes i s (u.writeCc b)
  | ldireg {u : State} {r : Gpr} (hu : Writes i s u) (hi : i.isLdi = true) :
      Writes i s { u with ldireg := .wrote r }
  | ijmpreg {u : State} {v : Word} (hu : Writes i s u) (hi : i.isIjmphi = true) :
      Writes i s { u with ijmpreg := .wrote v }
  | bytes {u : State} (k : Nat) {l : List Byte} (hu : Writes i s u)
      (hk : k + l.length ≤ (i.storeRun s).2)
      (ha : s.admitsRun ((i.storeRun s).1 + BitVec.ofNat 32 k) l.length = true) :
      Writes i s (u.putBytes ((i.storeRun s).1 + BitVec.ofNat 32 k) l)
  | draw {u : State} {n : Nat} (hu : Writes i s u) : Writes i s { u with draws := n }

namespace Writes

variable {i : Instr} {s u : State}

/-- The only destination. -/
theorem dest {r : Gpr} {v : Word} (hu : Writes i s u) (h : i.gprDests s = [r]) :
    Writes i s (u.writeGpr r v) :=
  hu.gpr (by simp [h])

/-- A single or a word is one slot (10_state.md R52). -/
theorem single {j : Fpr} {b : Word} (h : i.slotDests = [j]) : Writes i s (s.writeS j b) :=
  none.slot (by simp [h])

/-- A double is two slots (10_state.md R52). -/
theorem double {j : Fpr} {b : DWord} (h : i.slotDests = [j, j + 1]) : Writes i s (s.writeD j b) :=
  (none.slot (by simp [h])).slot (by simp [h])

/-- A destination 0 of a product or quotient is discarded (40_integer.md R204). -/
theorem unlessZero {r : Gpr} {v : Word} (hu : Writes i s u) (hr : r ≠ 0 → r ∈ i.gprDests s) :
    Writes i s (u.writeUnlessZero r v) := by
  unfold State.writeUnlessZero
  split_ifs with h0
  · exact hu
  · exact hu.gpr (hr h0)

/-- The two results of a product or quotient (40_integer.md R204). -/
theorem pair {rd rh : Gpr} {low high : Word} (h : i.gprDests s = [rd, rh].filter (· ≠ 0)) :
    Writes i s (s.writePair rd rh low high) := by
  have hrd : rd ≠ 0 → rd ∈ i.gprDests s := fun h0 => by simp [h, h0]
  have hrh : rh ≠ 0 → rh ∈ i.gprDests s := fun h0 => by simp [h, h0]
  unfold State.writePair
  split
  case isTrue heq => exact (none.gpr (hrd heq.2)).draw
  case isFalse => exact (none.unlessZero hrd).unlessZero hrh

/-- A store of all its bytes at once. -/
theorem store {a : Word} {l : List Byte} (h : i.storeRun s = (a, l.length))
    (ha : s.admitsRun a l.length = true) : Writes i s (s.putBytes a l) := by
  have hw := none (i := i) (s := s).bytes 0 (l := l) (by simp [h]) (by simpa [h] using ha)
  simpa [h] using hw

/-! ### What the writes leave -/

/-- The fields that no instruction writes. -/
theorem kept (hu : Writes i s u) :
    u.hi = s.hi ∧ u.lo = s.lo ∧ u.pc = s.pc ∧ u.status = s.status ∧ u.control = s.control ∧
      u.emb = s.emb ∧ u.hostReplies = s.hostReplies := by
  induction hu with
  | none => exact ⟨rfl, rfl, rfl, rfl, rfl, rfl, rfl⟩
  | gpr _ _ ih | slot _ _ ih | cc _ _ ih | ldireg _ _ ih | ijmpreg _ _ ih | bytes _ _ _ _ ih
  | draw _ ih => exact ih

/-- A general register that is no destination (10_state.md R44). -/
theorem gpr_kept (hu : Writes i s u) {q : Gpr} (hq : q ∉ i.gprDests s) : u.gpr[q] = s.gpr[q] := by
  induction hu with
  | none => rfl
  | @gpr u r v _ hr ih =>
    have hne : q ≠ r := fun e => hq (e ▸ hr)
    exact (gpr_set_ne u.gpr r q v hne).trans ih
  | slot _ _ ih | cc _ _ ih | ldireg _ _ ih | ijmpreg _ _ ih | bytes _ _ _ _ ih | draw _ ih => exact ih

/-- A slot that is no destination (10_state.md R52). -/
theorem slot_kept (hu : Writes i s u) {j : Fpr} (hj : j ∉ i.slotDests) : u.fpr[j] = s.fpr[j] := by
  induction hu with
  | none => rfl
  | @slot u k b _ hk ih =>
    have hne : j ≠ k := fun e => hj (e ▸ hk)
    exact (fpr_set_ne u.fpr k j (.wrote b) hne).trans ih
  | gpr _ _ ih | cc _ _ ih | ldireg _ _ ih | ijmpreg _ _ ih | bytes _ _ _ _ ih | draw _ ih => exact ih

/-- cc after anything but a comparison (10_state.md R49). -/
theorem cc_kept (hu : Writes i s u) (hi : i.isComparison = false) : u.cc = s.cc := by
  induction hu with
  | none => rfl
  | cc _ h => exact absurd h (by simp [hi])
  | gpr _ _ ih | slot _ _ ih | ldireg _ _ ih | ijmpreg _ _ ih | bytes _ _ _ _ ih | draw _ ih => exact ih

/-- ldireg after anything but ldi (10_state.md R54). -/
theorem ldireg_kept (hu : Writes i s u) (hi : i.isLdi = false) : u.ldireg = s.ldireg := by
  induction hu with
  | none => rfl
  | ldireg _ h => exact absurd h (by simp [hi])
  | gpr _ _ ih | slot _ _ ih | cc _ _ ih | ijmpreg _ _ ih | bytes _ _ _ _ ih | draw _ ih => exact ih

/-- ijmpreg after anything but ijmphi (10_state.md R55). -/
theorem ijmpreg_kept (hu : Writes i s u) (hi : i.isIjmphi = false) : u.ijmpreg = s.ijmpreg := by
  induction hu with
  | none => rfl
  | ijmpreg _ h => exact absurd h (by simp [hi])
  | gpr _ _ ih | slot _ _ ih | cc _ _ ih | ldireg _ _ ih | bytes _ _ _ _ ih | draw _ ih => exact ih

/-- A mark once set stays set (10_state.md R58). -/
theorem mark_kept (hu : Writes i s u) {m : MarkedReg} (hm : s.isWritten m = true) :
    u.isWritten m = true := by
  induction hu with
  | none => exact hm
  | gpr _ _ ih | bytes _ _ _ _ ih | draw _ ih => cases m <;> exact ih
  | @slot u k b _ _ ih =>
    cases m with
    | cc | ldireg | ijmpreg => exact ih
    | fpr j =>
      by_cases hjk : j = k
      · subst hjk
        simp [State.isWritten, Marked.wrote]
      · simpa [State.isWritten, fpr_set_ne _ _ _ _ hjk] using ih
  | cc _ _ ih =>
    cases m with
    | cc => rfl
    | ldireg | ijmpreg | fpr => exact ih
  | ldireg _ _ ih =>
    cases m with
    | ldireg => rfl
    | cc | ijmpreg | fpr => exact ih
  | ijmpreg _ _ ih =>
    cases m with
    | ijmpreg => rfl
    | cc | ldireg | fpr => exact ih

end Writes

/-! ### The ends of an instruction -/

/-- The next pcs the instruction `i`, begun in `s`, can name: npc, a relative or a region target, and any
word for the three transfers whose target comes from a register or from memory (10_state.md R48). -/
inductive Target (i : Instr) (s : State) : Word → Prop
  | next : Target i s s.npc
  | relative {imm : BitVec 16} (h : i.transfers = true) : Target i s (s.relTarget imm)
  | region {imm : BitVec 26} (h : i.transfers = true) : Target i s (s.regionTarget imm)
  | any {p : Word} (h : i.takesAnyTarget = true) : Target i s p

/-- The next states of `i` from `s`: the record of a fault, the handover to the host, or the writes done
and a next pc that is not 0 (41_control_flow.md R260). -/
inductive Ends (i : Instr) (s : State) : State → Prop
  | halted {tr : Trap} : Ends i s (s.halt tr (some (encode i)))
  | called (h : i.isSyscall = true) : Ends i s { s with control := .host (encode i) }
  | reached {u : State} {p : Word} (hu : Writes i s u) (ht : Target i s p) (hp : p ≠ 0#32) :
      Ends i s { u with pc := p }

/-- Whatever value the attempt gives has the property; a stop gives none. -/
def Attempt.Gives {α : Type} (P : α → Prop) (a : Attempt α) : Prop := ∀ v, a = .ok v → P v

namespace Attempt.Gives

variable {α β : Type} {P : α → Prop}

theorem pure {v : α} (h : P v) : Attempt.Gives P (.ok v) := by
  rintro _ ⟨⟩
  exact h

theorem error {e : Stop} : Attempt.Gives P (.error e) := by
  rintro _ ⟨⟩

/-- The rest of a sequence has the property for each value its first attempt gives. -/
theorem bind {a : Attempt β} {f : β → Attempt α} (h : ∀ v, a = .ok v → Attempt.Gives P (f v)) :
    Attempt.Gives P (a >>= f) := by
  intro w hw
  obtain ⟨v, hv, hf⟩ := (Attempt.bind_eq_ok a f w).1 hw
  exact h v hv w hf

end Attempt.Gives

section

variable {i : Instr} {s t : State}

/-- A transfer ends well when its attempt does allowed writes and names an allowed pc. -/
theorem transfer_ends {a : Attempt (State × Word)}
    (ha : a.Gives fun q => Writes i s q.1 ∧ Target i s q.2) :
    transfer i s a = .next t → Ends i s t := by
  intro h
  obtain ⟨tr, rfl⟩ | ⟨u, p, hup, hp, rfl⟩ := transfer_next h
  · exact .halted
  · obtain ⟨hu, ht⟩ := ha _ hup
    exact .reached hu ht hp

/-- Any other instruction ends well when its attempt does allowed writes. -/
theorem complete_ends {a : Attempt State} (ha : a.Gives (Writes i s)) :
    complete i s a = .next t → Ends i s t := by
  intro h
  obtain ⟨tr, rfl⟩ | ⟨u, hu, hp, rfl⟩ := complete_next h
  · exact .halted
  · exact .reached (ha u hu) .next hp

/-! ### The shared forms of the meanings -/

theorem branch_ends {taken : Attempt Bool} {imm : BitVec 16} (hi : i.transfers = true) :
    branch i s taken imm = .next t → Ends i s t := by
  refine transfer_ends (.bind fun b _ => .pure ⟨.none, ?_⟩)
  cases b with
  | false => exact .next
  | true => exact .relative hi

theorem compareS_ends {p : FpVal → FpVal → Bool} {fs ft : Fpr} (hi : i.isComparison = true) :
    compareS i s p fs ft = .next t → Ends i s t :=
  complete_ends (.bind fun _ _ => .bind fun _ _ => .pure (Writes.none.cc hi))

theorem compareD_ends {p : FpVal → FpVal → Bool} {fs ft : Fpr} (hi : i.isComparison = true) :
    compareD i s p fs ft = .next t → Ends i s t :=
  complete_ends (.bind fun _ _ => .bind fun _ _ => .bind fun _ _ => .bind fun _ _ =>
    .pure (Writes.none.cc hi))

theorem arithS_ends {op : NanOp} {f : FpVal → FpVal → FpResult} {fd fs ft : Fpr}
    (h : i.slotDests = [fd]) : arithS i s op f fd fs ft = .next t → Ends i s t :=
  complete_ends (.bind fun _ _ => .bind fun _ _ => .pure (.single h))

theorem arithD_ends {op : NanOp} {f : FpVal → FpVal → FpResult} {fd fs ft : Fpr}
    (h : i.slotDests = [fd, fd + 1]) : arithD i s op f fd fs ft = .next t → Ends i s t :=
  complete_ends (.bind fun _ _ => .bind fun _ _ => .bind fun _ _ => .bind fun _ _ => .bind fun _ _ =>
    .pure (.double h))

theorem fusedS_ends {op : NanOp} {f : FpVal → FpVal → FpVal → FpResult} {fd fr fs ft : Fpr}
    (h : i.slotDests = [fd]) : fusedS i s op f fd fr fs ft = .next t → Ends i s t :=
  complete_ends (.bind fun _ _ => .bind fun _ _ => .bind fun _ _ => .pure (.single h))

theorem fusedD_ends {op : NanOp} {f : FpVal → FpVal → FpVal → FpResult} {fd fr fs ft : Fpr}
    (h : i.slotDests = [fd, fd + 1]) : fusedD i s op f fd fr fs ft = .next t → Ends i s t :=
  complete_ends (.bind fun _ _ => .bind fun _ _ => .bind fun _ _ => .bind fun _ _ => .bind fun _ _ =>
    .bind fun _ _ => .bind fun _ _ => .pure (.double h))

theorem patternS_ends {f : Word → Word} {fd fs : Fpr} (h : i.slotDests = [fd]) :
    patternS i s f fd fs = .next t → Ends i s t :=
  complete_ends (.bind fun _ _ => .pure (.single h))

theorem patternD_ends {f : DWord → DWord} {fd fs : Fpr} (h : i.slotDests = [fd, fd + 1]) :
    patternD i s f fd fs = .next t → Ends i s t :=
  complete_ends (.bind fun _ _ => .bind fun _ _ => .bind fun _ _ => .pure (.double h))

theorem toWordS_ends {op : ToWordOp} {mode : WordRounding} {fd fs : Fpr} (h : i.slotDests = [fd]) :
    toWordS i s op mode fd fs = .next t → Ends i s t :=
  complete_ends (.bind fun _ _ => .pure (.single h))

theorem toWordD_ends {op : ToWordOp} {mode : WordRounding} {fd fs : Fpr} (h : i.slotDests = [fd]) :
    toWordD i s op mode fd fs = .next t → Ends i s t :=
  complete_ends (.bind fun _ _ => .bind fun _ _ => .pure (.single h))

theorem moveS_ends {guard : Attempt Bool} {fd fs : Fpr} (h : i.slotDests = [fd]) :
    moveS i s guard fd fs = .next t → Ends i s t := by
  refine complete_ends (.bind fun b _ => ?_)
  cases b with
  | false => exact .pure .none
  | true => exact .bind fun _ _ => .pure (.single h)

theorem moveD_ends {guard : Attempt Bool} {fd fs : Fpr} (h : i.slotDests = [fd, fd + 1]) :
    moveD i s guard fd fs = .next t → Ends i s t := by
  refine complete_ends (.bind fun _ _ => .bind fun _ _ => .bind fun b _ => ?_)
  cases b with
  | false => exact .pure .none
  | true => exact .bind fun _ _ => .pure (.double h)

/-! ### The stores -/

/-- A request that passes the check is admitted. -/
theorem State.admitsRun_of_checkAdmitted {a : Word} {n : Nat} {v : Unit}
    (h : s.checkAdmitted a n = .ok v) : s.admitsRun a n = true := by
  unfold State.checkAdmitted at h
  split at h
  case isTrue ha => exact ha
  case isFalse => cases h

/-- The two words of a double (46_loadstore.md R459). -/
theorem Writes.twoWords {a v w : Word} (h : i.storeRun s = (a, 8)) (ha : s.admitsRun a 4 = true)
    (ha' : s.admitsRun (a + 4#32) 4 = true) :
    Writes i s ((s.putBytes a (bytesOfWord v)).putBytes (a + 4#32) (bytesOfWord w)) := by
  have hv := Writes.none (i := i) (s := s).bytes 0 (l := bytesOfWord v)
    (by simp [h, bytesOfWord_length]) (by simpa [h, bytesOfWord_length] using ha)
  have hvw := hv.bytes 4 (l := bytesOfWord w) (by simp [h, bytesOfWord_length])
    (by simpa [h, bytesOfWord_length] using ha')
  simpa [h] using hvw

theorem storeByte_gives {a : Word} {v : Byte} (h : i.storeRun s = (a, 1)) :
    (s.storeByte a v).Gives (Writes i s) :=
  .bind fun _ ha => .pure (.store h (State.admitsRun_of_checkAdmitted ha))

theorem storeHalf_gives {a : Word} {v : Half} (h : i.storeRun s = (a, 2)) :
    (s.storeHalf a v).Gives (Writes i s) :=
  .bind fun _ ha => .pure (.store h (State.admitsRun_of_checkAdmitted ha))

theorem storeWord_gives {a v : Word} (h : i.storeRun s = (a, 4)) :
    (s.storeWord a v).Gives (Writes i s) :=
  .bind fun _ ha => .pure (.store h (State.admitsRun_of_checkAdmitted ha))

end

/-- Everything an instruction that answers a next state can have done. -/
theorem exec_ends {i : Instr} {s t : State} : exec i s = .next t → Ends i s t := by
  unfold exec
  cases i with
  | add | sub | and | or | xor | nor | slt | sltu | addi | slti | sltiu | andi | ori | xori | sll | srl
  | sra | sllv | srlv | srav | ror | rorr | clz | seb | seh =>
    exact complete_ends (.pure (Writes.none.dest rfl))
  | mul | mulu => exact complete_ends (.pure (.pair rfl))
  | div => exact complete_ends (.bind fun _ _ => .bind fun _ _ => .pure (.pair rfl))
  | divu => exact complete_ends (.bind fun _ _ => .pure (.pair rfl))
  | ext => exact complete_ends (.bind fun _ _ => .pure (Writes.none.dest rfl))
  | movz =>
    refine complete_ends (.pure ?_)
    split
    case isTrue => exact Writes.none.dest rfl
    case isFalse => exact .none
  | movn =>
    refine complete_ends (.pure ?_)
    split
    case isTrue => exact .none
    case isFalse => exact Writes.none.dest rfl
  | movt =>
    refine complete_ends (.bind fun c _ => .pure ?_)
    cases c with
    | true => exact Writes.none.dest rfl
    | false => exact .none
  | movf =>
    refine complete_ends (.bind fun c _ => .pure ?_)
    cases c with
    | true => exact .none
    | false => exact Writes.none.dest rfl
  | jump => exact transfer_ends (.pure ⟨.none, .region rfl⟩)
  | call => exact transfer_ends (.pure ⟨Writes.none.dest rfl, .region rfl⟩)
  | jumpr => exact transfer_ends (.pure ⟨.none, .any rfl⟩)
  | callr => exact transfer_ends (.pure ⟨Writes.none.dest rfl, .any rfl⟩)
  | rcall => exact transfer_ends (.pure ⟨Writes.none.dest rfl, .relative rfl⟩)
  | jeq | jne | jlez | jgtz | jltz | jgez | bc1t | bc1f => exact branch_ends rfl
  | ijmphi => exact complete_ends (.pure (Writes.none.ijmpreg rfl))
  | ijmp =>
    exact transfer_ends (.bind fun _ _ => .bind fun _ _ => .bind fun _ _ => .pure ⟨.none, .any rfl⟩)
  | ldi => exact complete_ends (.pure ((Writes.none.dest rfl).ldireg rfl))
  | ldihi =>
    refine complete_ends (.bind fun r hr => .pure (Writes.none.dest ?_))
    obtain ⟨-, rfl⟩ := (Marked.read_eq_ok _ _ _).1 hr
    rfl
  | teq =>
    refine complete_ends ?_
    split
    case isTrue => exact .error
    case isFalse => exact .pure .none
  | brk =>
    rintro ⟨⟩
    exact .halted
  | syscall =>
    rintro ⟨⟩
    exact .called rfl
  | addS | subS | mulS | divS => exact arithS_ends rfl
  | addD | subD | mulD | divD => exact arithD_ends rfl
  | sqrtS | absS | negS | movS => exact patternS_ends rfl
  | sqrtD | absD | negD | movD => exact patternD_ends rfl
  | maddS | msubS => exact fusedS_ends rfl
  | maddD | msubD => exact fusedD_ends rfl
  | cEqS | cOleS | cOltS | cUeqS | cUleS | cUltS | cUnS => exact compareS_ends rfl
  | cEqD | cOleD | cOltD | cUeqD | cUleD | cUltD | cUnD => exact compareD_ends rfl
  | movzS | movnS | movtS | movfS => exact moveS_ends rfl
  | movzD | movnD | movtD | movfD => exact moveD_ends rfl
  | cvtDS | cvtDW => exact complete_ends (.bind fun _ _ => .bind fun _ _ => .pure (.double rfl))
  | cvtSW => exact complete_ends (.bind fun _ _ => .pure (.single rfl))
  | cvtSD | roundWS => exact complete_ends (.bind fun _ _ => .bind fun _ _ => .pure (.single rfl))
  | roundWD =>
    exact complete_ends (.bind fun _ _ => .bind fun _ _ => .bind fun _ _ => .pure (.single rfl))
  | cvtWS | ceilWS | floorWS | truncWS => exact toWordS_ends rfl
  | cvtWD | ceilWD | floorWD | truncWD => exact toWordD_ends rfl
  | mfc1 | mflc1 => exact complete_ends (.bind fun _ _ => .pure (Writes.none.dest rfl))
  | mfhc1 => exact complete_ends (.bind fun _ _ => .bind fun _ _ => .pure (Writes.none.dest rfl))
  | mtc1 | mtlc1 => exact complete_ends (.pure (.single rfl))
  | mthc1 => exact complete_ends (.bind fun _ _ => .pure (.single rfl))
  | ldb | ldbu | ldwl | ldwr => exact complete_ends (.bind fun _ _ => .pure (Writes.none.dest rfl))
  | ldh | ldhu | ldw | ll =>
    exact complete_ends (.bind fun _ _ => .bind fun _ _ => .pure (Writes.none.dest rfl))
  | stb => exact complete_ends (storeByte_gives rfl)
  | sth => exact complete_ends (.bind fun _ _ => storeHalf_gives rfl)
  | stw | stwl | stwr => exact complete_ends (.bind fun _ _ => storeWord_gives rfl)
  | sc =>
    exact complete_ends (.bind fun _ _ => .bind fun u hu =>
      .pure ((storeWord_gives rfl u hu).dest rfl))
  | lwc1 => exact complete_ends (.bind fun _ _ => .bind fun _ _ => .pure (.single rfl))
  | ldc1 =>
    exact complete_ends (.bind fun _ _ => .bind fun _ _ => .bind fun _ _ => .bind fun _ _ =>
      .pure (.double rfl))
  | swc1 => exact complete_ends (.bind fun _ _ => .bind fun _ _ => storeWord_gives rfl)
  | sdc1 =>
    exact complete_ends (.bind fun _ _ => .bind fun _ _ => .bind fun _ _ => .bind fun _ hhi =>
      .bind fun _ hlo => .pure (.twoWords rfl (State.admitsRun_of_checkAdmitted hhi)
        (State.admitsRun_of_checkAdmitted hlo)))

/-- The registers and memory of a next state are those of `s` after allowed writes: how an instruction
ends touches pc, the run status and the turn only. -/
theorem Ends.writes {i : Instr} {s t : State} (h : Ends i s t) :
    ∃ u, Writes i s u ∧ t = { u with pc := t.pc, status := t.status, control := t.control } := by
  cases h with
  | halted | called => exact ⟨s, .none, rfl⟩
  | @reached u p hu => exact ⟨u, hu, rfl⟩

end Sys2Proof.Machine
end

section
/-! What every instruction leaves of the registers: O12, O13, O14 and, for the pc, O17. -/

namespace Sys2Proof.Machine

/-- Settles O12: each of the three registers has its writers, and no write clears a mark. -/
theorem specialRegisterWriters : Obligations.SpecialRegisterWriters := by
  intro i s t h
  obtain ⟨u, hu, ht⟩ := (exec_ends h).writes
  obtain ⟨-, -, -, -, -, hemb, -⟩ := hu.kept
  rw [ht]
  refine ⟨hu.cc_kept, hu.ldireg_kept, hu.ijmpreg_kept, fun m hm => ?_, hemb⟩
  have hmark := hu.mark_kept hm
  cases m with
  | cc | ldireg | ijmpreg | fpr => exact hmark

/-- Settles O13: every write to a general register is to a destination. -/
theorem gprFrame : Obligations.GprFrame := by
  intro i s t h r hr
  obtain ⟨u, hu, ht⟩ := (exec_ends h).writes
  rw [ht]
  exact hu.gpr_kept hr

/-- Settles O14: every write to a slot is to a destination. -/
theorem slotFrame : Obligations.SlotFrame := by
  intro i s t h j hj
  obtain ⟨u, hu, ht⟩ := (exec_ends h).writes
  rw [ht]
  exact hu.slot_kept hj

/-! ### Alignment (41_control_flow.md R262, R263, R265) -/

theorem add_aligned {a b : Word} (ha : a.toNat % 4 = 0) (hb : b.toNat % 4 = 0) :
    (a + b).toNat % 4 = 0 := by
  rw [BitVec.toNat_add]
  omega

theorem State.npc_aligned {s : State} (h : s.pc.toNat % 4 = 0) : s.npc.toNat % 4 = 0 :=
  add_aligned h (by decide)

/-- The offset of a relative target is a number of words. -/
theorem State.relTarget_aligned {s : State} (h : s.pc.toNat % 4 = 0) (imm : BitVec 16) :
    (s.relTarget imm).toNat % 4 = 0 := by
  refine add_aligned (s.npc_aligned h) ?_
  rw [BitVec.toNat_shiftLeft, Nat.shiftLeft_eq]
  omega

/-- A region target ends in two zero bits, whatever the pc. -/
theorem State.regionTarget_aligned (s : State) (imm : BitVec 26) :
    (s.regionTarget imm).toNat % 4 = 0 := by
  unfold State.regionTarget
  rw [BitVec.toNat_append, Nat.shiftLeft_eq]
  simp

theorem Target.aligned {i : Instr} {s : State} {p : Word} (hp : Target i s p)
    (hi : i.takesAnyTarget = false) (hs : s.pc.toNat % 4 = 0) : p.toNat % 4 = 0 := by
  cases hp with
  | next => exact s.npc_aligned hs
  | relative => exact s.relTarget_aligned hs _
  | region => exact s.regionTarget_aligned _
  | any h => exact absurd h (by simp [hi])

/-- Settles O17: a fault and a host call keep the pc, and every other end names an aligned target. -/
theorem targetsStayAligned : Obligations.TargetsStayAligned := by
  intro i s t hi hs h
  cases exec_ends h with
  | halted | called => exact hs
  | reached _ hp => exact hp.aligned hi hs

end Sys2Proof.Machine
end

section
/-! The reset state and the inspection contract (10_state.md R59, R60, R63): O10 and O59. -/

namespace Sys2Proof.Machine

/-- The invariant holds at reset, where nothing is in memory and nothing stored. -/
theorem State.inv_reset : State.reset.Inv where
  mem_wf := ⟨.nil, List.forall_mem_nil _⟩
  stored_wf := ⟨.nil, List.forall_mem_nil _⟩
  stored_admitted := List.forall_mem_nil _

/-- Settles O10: both register files are replicated, and the rest are fields of the reset state. -/
theorem resetState : Obligations.ResetState := by
  refine ⟨fun r => ?_, rfl, rfl, rfl, rfl, rfl, rfl, fun j => ?_, State.inv_reset⟩
  · exact Vector.getElem_replicate r.isLt
  · exact congrArg Marked.written (Vector.getElem_replicate j.isLt)

/-! ### Inspection, by index -/

section

variable (s : State) (v : Word)

theorem State.inspectRead_gpr (r : Gpr) : s.inspectRead r = s.gpr[r] := by
  simp [State.inspectRead]

theorem State.inspectWrite_gpr (r : Gpr) : s.inspectWrite r v = s.writeGpr r v := by
  simp [State.inspectWrite]

theorem State.inspectRead_lo (h : s.lo.written = true) : s.inspectRead 33 = s.lo.val := if_pos h

theorem State.inspectRead_hi (h : s.hi.written = true) : s.inspectRead 34 = s.hi.val := if_pos h

/-- No other index is a register (10_state.md R59, R60). -/
theorem State.inspect_of_no_register {k : Nat} (h32 : 32 ≤ k) (h33 : k ≠ 33) (h34 : k ≠ 34)
    (h37 : k ≠ 37) : s.inspectRead k = 0#32 ∧ s.inspectWrite k v = s := by
  have hk : ¬ k < 32 := by omega
  simp [State.inspectRead, State.inspectWrite, hk, h33, h34, h37]

end

/-- Settles O59: the index decides which register is meant, and a write of hi or lo marks it, so that
the read after it is of a written register. -/
theorem inspection : Obligations.Inspection := fun s v =>
  ⟨fun r => ⟨s.inspectRead_gpr r, s.inspectWrite_gpr v r⟩, s.inspectRead_lo, s.inspectRead_hi, rfl,
    rfl, State.inspectRead_lo _ rfl, rfl, State.inspectRead_hi _ rfl, rfl,
    fun _ h32 h33 h34 h37 => s.inspect_of_no_register v h32 h33 h34 h37⟩

end Sys2Proof.Machine
end

section
/-! hi and lo are out of reach (10_state.md R45): every part of a step does the same with other contents
of the two, and leaves those contents (O11). -/

namespace Sys2Proof.Machine

/-- The state with other contents of hi and lo. -/
def State.withHiLo (h l : Marked Word) (s : State) : State := { s with hi := h, lo := l }

/-! ### Choices and attempts that do the same up to a map -/

/-- A choice whose branches do the same up to `f`. -/
theorem ite_eq_map {α β : Type} {f : α → β} {c : Prop} [Decidable c] {x y : α} {x' y' : β}
    (hx : x' = f x) (hy : y' = f y) : (if c then x' else y') = f (if c then x else y) := by
  rw [apply_ite f, hx, hy]

section

variable {α β γ : Type} {f : α → α} {a : Attempt β}

theorem Attempt.pure_map {v v' : α} (hv : v' = f v) :
    (pure v' : Attempt α) = (pure v : Attempt α).map f :=
  congrArg pure hv

/-- A sequence whose first attempt is the same and whose rest does the same up to `f`. -/
theorem Attempt.bind_map {k k' : β → Attempt α} (hk : ∀ v, k' v = (k v).map f) :
    (a >>= k') = (a >>= k).map f := by
  cases a with
  | error => rfl
  | ok v => exact hk v

/-- A sequence whose first attempt does the same up to `g`, and whose rest then does up to `f`. -/
theorem Attempt.map_bind_map {g : β → γ} {a' : Attempt γ} {k : β → Attempt α} {k' : γ → Attempt α}
    (ha : a' = a.map g) (hk : ∀ v, k' (g v) = (k v).map f) : (a' >>= k') = (a >>= k).map f := by
  subst ha
  cases a with
  | error => rfl
  | ok v => exact hk v

end

/-! ### The instructions -/

section

variable {h l : Marked Word} {i : Instr} {s : State}

open Attempt (pure_map bind_map map_bind_map)

theorem transfer_withHiLo {a a' : Attempt (State × Word)}
    (ha : a' = a.map fun q => (q.1.withHiLo h l, q.2)) :
    transfer i (s.withHiLo h l) a' = mapNext (.withHiLo h l) (transfer i s a) := by
  subst ha
  rcases a with (tr | addr) | ⟨u, p⟩
  · rfl
  · rfl
  · exact ite_eq_map rfl rfl

theorem complete_withHiLo {a a' : Attempt State} (ha : a' = a.map (.withHiLo h l)) :
    complete i (s.withHiLo h l) a' = mapNext (.withHiLo h l) (complete i s a) := by
  subst ha
  cases a with
  | error e => exact transfer_withHiLo (a := .error e) rfl
  | ok u => exact transfer_withHiLo (a := .ok (u, s.npc)) rfl

theorem branch_withHiLo {taken : Attempt Bool} {imm : BitVec 16} :
    branch i (s.withHiLo h l) taken imm = mapNext (.withHiLo h l) (branch i s taken imm) :=
  transfer_withHiLo (bind_map fun _ => rfl)

theorem moveS_withHiLo {guard : Attempt Bool} {fd fs : Fpr} :
    moveS i (s.withHiLo h l) guard fd fs = mapNext (.withHiLo h l) (moveS i s guard fd fs) := by
  refine complete_withHiLo (bind_map fun b => ?_)
  cases b with
  | false => rfl
  | true => exact bind_map fun _ => rfl

theorem moveD_withHiLo {guard : Attempt Bool} {fd fs : Fpr} :
    moveD i (s.withHiLo h l) guard fd fs = mapNext (.withHiLo h l) (moveD i s guard fd fs) := by
  refine complete_withHiLo (bind_map fun _ => bind_map fun _ => bind_map fun b => ?_)
  cases b with
  | false => rfl
  | true => exact bind_map fun _ => rfl

theorem writeUnlessZero_withHiLo {r : Gpr} {v : Word} :
    (s.withHiLo h l).writeUnlessZero r v = (s.writeUnlessZero r v).withHiLo h l :=
  ite_eq_map rfl rfl

theorem writePair_withHiLo {rd rh : Gpr} {low high : Word} :
    (s.withHiLo h l).writePair rd rh low high = (s.writePair rd rh low high).withHiLo h l := by
  unfold State.writePair
  rw [writeUnlessZero_withHiLo, writeUnlessZero_withHiLo]
  exact ite_eq_map rfl rfl

/-- No instruction reads or writes hi or lo: each check and read of its attempt is the same, and what it
writes is elsewhere. The cases stand together by how many checks and reads come first. -/
theorem exec_withHiLo : exec i (s.withHiLo h l) = mapNext (.withHiLo h l) (exec i s) := by
  unfold exec
  cases i with
  | add | sub | and | or | xor | nor | slt | sltu | addi | slti | sltiu | andi | ori | xori | sll | srl
  | sra | sllv | srlv | srav | ror | rorr | clz | seb | seh | ijmphi | ldi | mtc1 | mtlc1 =>
    exact complete_withHiLo rfl
  | mul | mulu => exact complete_withHiLo (pure_map writePair_withHiLo)
  | divu => exact complete_withHiLo (bind_map fun _ => pure_map writePair_withHiLo)
  | div =>
    exact complete_withHiLo (bind_map fun _ => bind_map fun _ => pure_map writePair_withHiLo)
  | movz | movn => exact complete_withHiLo (pure_map (ite_eq_map rfl rfl))
  | movt | movf => exact complete_withHiLo (bind_map fun _ => pure_map (ite_eq_map rfl rfl))
  | jump | call | jumpr | callr | rcall => exact transfer_withHiLo rfl
  | jeq | jne | jlez | jgtz | jltz | jgez | bc1t | bc1f => exact branch_withHiLo
  | ijmp =>
    exact transfer_withHiLo (bind_map fun _ => bind_map fun _ => bind_map fun _ => rfl)
  | teq => exact complete_withHiLo (ite_eq_map rfl rfl)
  | brk | syscall => rfl
  | ext | ldihi | sqrtS | absS | negS | movS | cvtSW | cvtWS | ceilWS | floorWS | truncWS | mfc1 | mflc1
  | mthc1 | ldb | ldbu | ldwl | ldwr | stb =>
    exact complete_withHiLo (bind_map fun _ => rfl)
  | addS | subS | mulS | divS | cEqS | cOleS | cOltS | cUeqS | cUleS | cUltS | cUnS | cvtDS | cvtDW | cvtSD
  | roundWS | cvtWD | ceilWD | floorWD | truncWD | mfhc1 | ldh | ldhu | ldw | ll | lwc1 | sth | stw | stwl
  | stwr =>
    exact complete_withHiLo (bind_map fun _ => bind_map fun _ => rfl)
  | sc =>
    exact complete_withHiLo (bind_map fun _ => map_bind_map (g := .withHiLo h l)
      (bind_map fun _ => rfl) fun _ => rfl)
  | sqrtD | absD | negD | movD | maddS | msubS | roundWD | swc1 =>
    exact complete_withHiLo (bind_map fun _ => bind_map fun _ => bind_map fun _ => rfl)
  | cEqD | cOleD | cOltD | cUeqD | cUleD | cUltD | cUnD | ldc1 =>
    exact complete_withHiLo (bind_map fun _ => bind_map fun _ => bind_map fun _ =>
      bind_map fun _ => rfl)
  | addD | subD | mulD | divD | sdc1 =>
    exact complete_withHiLo (bind_map fun _ => bind_map fun _ => bind_map fun _ =>
      bind_map fun _ => bind_map fun _ => rfl)
  | maddD | msubD =>
    exact complete_withHiLo (bind_map fun _ => bind_map fun _ => bind_map fun _ =>
      bind_map fun _ => bind_map fun _ => bind_map fun _ => bind_map fun _ => rfl)
  | movzS | movnS | movtS | movfS => exact moveS_withHiLo
  | movzD | movnD | movtD | movfD => exact moveD_withHiLo

/-! ### The step -/

theorem blockStep_withHiLo :
    blockStep (s.withHiLo h l) = mapNext (.withHiLo h l) (blockStep s) := by
  have hfetch : (s.withHiLo h l).fetch = s.fetch := rfl
  unfold blockStep
  rw [hfetch]
  rcases s.fetch with (tr | a) | w
  · rfl
  · rfl
  · dsimp only
    cases decode w with
    | error => rfl
    | ok i => exact exec_withHiLo

theorem takeReply_withHiLo :
    (s.withHiLo h l).takeReply = (s.takeReply.1, s.takeReply.2.withHiLo h l) := by
  have hqueue : (s.withHiLo h l).hostReplies = s.hostReplies := rfl
  unfold State.takeReply
  rw [hqueue]
  cases s.hostReplies <;> rfl

theorem hostWrites_withHiLo {writes : List (Word × Byte)} :
    (s.withHiLo h l).hostWrites writes = (s.hostWrites writes).withHiLo h l := by
  induction writes generalizing s with
  | nil => rfl
  | cons c writes ih =>
    obtain ⟨a, v⟩ := c
    refine Eq.trans ?_ ih
    exact congrArg (State.hostWrites · writes) (ite_eq_map rfl rfl)

theorem hostTurn_withHiLo {word : Word} :
    hostTurn word (s.withHiLo h l) = mapNext (.withHiLo h l) (hostTurn word s) := by
  have hshift : (s.withHiLo h l).shiftDown = s.shiftDown.withHiLo h l := rfl
  unfold hostTurn
  dsimp only
  rw [hshift, takeReply_withHiLo]
  refine ite_eq_map rfl (ite_eq_map rfl ?_)
  dsimp only
  cases s.shiftDown.takeReply.1 with
  | returns | fatal =>
    dsimp only
    rw [hostWrites_withHiLo]
    rfl

theorem resumeTurn_withHiLo {word : Word} :
    resumeTurn word (s.withHiLo h l) = mapNext (.withHiLo h l) (resumeTurn word s) :=
  ite_eq_map rfl rfl

end

/-- Settles O11: the step looks at the run status and the turn, and each of the three turns leaves hi and
lo alone. -/
theorem hiLoOutOfReach : Obligations.HiLoOutOfReach := by
  intro s h l
  change step (s.withHiLo h l) = mapNext (.withHiLo h l) (step s)
  by_cases hrun : s.status = .running
  · cases hc : s.control with
    | block =>
      rw [step_block s hrun hc, step_block (s.withHiLo h l) hrun hc]
      exact blockStep_withHiLo
    | host word =>
      rw [step_host s word hrun hc, step_host (s.withHiLo h l) word hrun hc]
      exact hostTurn_withHiLo
    | resume word =>
      rw [step_resume s word hrun hc, step_resume (s.withHiLo h l) word hrun hc]
      exact resumeTurn_withHiLo
  · rw [step_ended s hrun, step_ended (s.withHiLo h l) hrun]
    rfl

end Sys2Proof.Machine
end

section
/-! What every instruction leaves of memory and of the set of stored addresses: O15. -/

namespace Sys2Proof.Machine

/-! ### The bytes of a store -/

/-- Two offsets from an address add up, addresses wrapping (20_memory.md R114). -/
theorem add_ofNat_add_ofNat (a : Word) (k j : Nat) :
    a + BitVec.ofNat 32 k + BitVec.ofNat 32 j = a + BitVec.ofNat 32 (k + j) := by
  rw [BitVec.add_assoc, BitVec.ofNat_add]

/-- Writing bytes leaves every byte outside the run, in canonical form or not. -/
theorem Memory.read_writeBytes_of_ne {m : Memory} {a c : Word} {l : List Byte}
    (h : ∀ k < l.length, c ≠ a + BitVec.ofNat 32 k) :
    (m.writeBytes a l).read c.toNat = m.read c.toNat := by
  induction l generalizing m a with
  | nil => rfl
  | cons v l ih =>
    have htail : ∀ k < l.length, c ≠ a + 1#32 + BitVec.ofNat 32 k := fun k hk => by
      rw [add_ofNat_add_ofNat a 1 k]
      exact h (1 + k) (by simp only [List.length_cons]; omega)
    have hhead : c.toNat ≠ a.toNat := fun e => h 0 (by simp) (by simpa using BitVec.eq_of_toNat_eq e)
    exact (ih htail).trans (Memory.read_write_ne m a.toNat c.toNat v hhead)

namespace Writes

variable {i : Instr} {s u : State}

/-- A byte outside the store (20_memory.md R111). -/
theorem byte_kept (hu : Writes i s u) {a : Word}
    (ha : ∀ k < (i.storeRun s).2, a ≠ (i.storeRun s).1 + BitVec.ofNat 32 k) :
    u.byteAt a = s.byteAt a := by
  induction hu with
  | none => rfl
  | bytes k _ hk _ ih =>
    refine (Memory.read_writeBytes_of_ne fun j hj => ?_).trans ih
    rw [add_ofNat_add_ofNat]
    exact ha (k + j) (by omega)
  | gpr _ _ ih | slot _ _ ih | cc _ _ ih | ldireg _ _ ih | ijmpreg _ _ ih | draw _ ih => exact ih

/-- A stored address is an old one or one of the store (20_memory.md R121). -/
theorem of_mem_stored (hu : Writes i s u) {n : Nat} (hn : n ∈ u.stored) :
    n ∈ s.stored ∨
      ∃ k < (i.storeRun s).2, n = ((i.storeRun s).1 + BitVec.ofNat 32 k).toNat := by
  induction hu with
  | none => exact .inl hn
  | bytes k _ hk _ ih =>
    obtain hold | ⟨j, hj, rfl⟩ := (AddrSet.mem_insertRun _ _ _ _).1 hn
    · exact ih hold
    · exact .inr ⟨k + j, by omega, by rw [add_ofNat_add_ofNat]⟩
  | gpr _ _ ih | slot _ _ ih | cc _ _ ih | ldireg _ _ ih | ijmpreg _ _ ih | draw _ ih => exact ih hn

/-- All of memory, after an instruction that stores nothing: the only bytes it may put are none. -/
theorem memory_kept (hu : Writes i s u) (h0 : (i.storeRun s).2 = 0) :
    u.mem = s.mem ∧ u.stored = s.stored := by
  induction hu with
  | none => exact ⟨rfl, rfl⟩
  | @bytes u k l _ hk _ ih =>
    obtain rfl : l = [] := List.length_eq_zero_iff.1 (by omega)
    exact ih
  | gpr _ _ ih | slot _ _ ih | cc _ _ ih | ldireg _ _ ih | ijmpreg _ _ ih | draw _ ih => exact ih

end Writes

/-- Settles O15: every byte an instruction puts and every address it marks is one of its store. -/
theorem memoryFrame : Obligations.MemoryFrame := by
  intro i s t h
  obtain ⟨u, hu, ht⟩ := (exec_ends h).writes
  rw [ht]
  exact ⟨fun _ => hu.byte_kept, fun _ => hu.of_mem_stored, hu.memory_kept⟩

end Sys2Proof.Machine
end

section
/-! What a step can do, said once for the step, the block's turn and the resume, and the invariant through
each of the three turns: O9. -/

namespace Sys2Proof.Machine

/-! ### The invariant through the writes of an instruction -/

/-- The invariant speaks of memory, of the stored addresses and of what the port admits alone. -/
theorem State.Inv.of_kept {s t : State} (h : s.Inv) (hmem : t.mem.wf) (hstored : t.stored = s.stored)
    (hemb : t.emb = s.emb) : t.Inv where
  mem_wf := hmem
  stored_wf := hstored ▸ h.stored_wf
  stored_admitted n hn := by
    rw [State.admits, hemb]
    exact h.stored_admitted n (hstored ▸ hn)

/-- A store of admitted bytes keeps the invariant (20_memory.md R102). -/
theorem State.Inv.putBytes {s : State} {a : Word} {l : List Byte} (h : s.Inv)
    (ha : s.admitsRun a l.length = true) : (s.putBytes a l).Inv where
  mem_wf := Memory.writeBytes_wf s.mem a l h.mem_wf
  stored_wf := AddrSet.insertRun_wf s.stored a l.length h.stored_wf
  stored_admitted n hn := by
    obtain hold | ⟨j, hj, rfl⟩ := (AddrSet.mem_insertRun _ _ _ _).1 hn
    · exact h.stored_admitted n hold
    · rw [BitVec.ofNat_toNat, BitVec.setWidth_eq]
      exact (s.admitsRun_iff a l.length).1 ha j hj

/-- What the port admits is a parameter of the run, which the writes keep. -/
theorem Writes.admitsRun_eq {i : Instr} {s u : State} (hu : Writes i s u) (a : Word) (n : Nat) :
    u.admitsRun a n = s.admitsRun a n := by
  obtain ⟨-, -, -, -, -, hemb, -⟩ := hu.kept
  rw [Bool.eq_iff_iff, State.admitsRun_iff, State.admitsRun_iff]
  simp only [State.admits, hemb]

/-- Only a store's bytes touch what the invariant speaks of, and those are admitted. -/
theorem Writes.inv {i : Instr} {s u : State} (hu : Writes i s u) (h : s.Inv) : u.Inv := by
  induction hu with
  | none => exact h
  | bytes k hu _ ha ih => exact ih.putBytes ((hu.admitsRun_eq _ _).trans ha)
  | gpr _ _ ih | slot _ _ ih | cc _ _ ih | ldireg _ _ ih | ijmpreg _ _ ih | draw _ ih =>
    exact ih.of_kept ih.mem_wf rfl rfl

/-- A fault's record leaves memory and the parameters of the run (60_exceptions.md R480). -/
theorem State.Inv.halt {s : State} (h : s.Inv) (tr : Trap) (w : Option Word) : (s.halt tr w).Inv :=
  h.of_kept h.mem_wf rfl rfl

theorem Ends.inv {i : Instr} {s t : State} (ht : Ends i s t) (h : s.Inv) : t.Inv := by
  obtain ⟨u, hu, heq⟩ := ht.writes
  rw [heq]
  exact (hu.inv h).of_kept (hu.inv h).mem_wf rfl rfl

/-! ### What a step can do -/

/-- Everything a step that answers a next state can be: of a running machine, one of the three turns. -/
theorem step_next {s t : State} (h : step s = .next t) :
    s.status = .running ∧
      (s.control = .block ∧ blockStep s = .next t ∨
        ∃ word, s.control = .host word ∧ hostTurn word s = .next t ∨
          s.control = .resume word ∧ resumeTurn word s = .next t) := by
  by_cases hrun : s.status = .running
  · refine ⟨hrun, ?_⟩
    cases hc : s.control with
    | block => exact .inl ⟨rfl, (step_block s hrun hc).symm.trans h⟩
    | host word => exact .inr ⟨word, .inl ⟨rfl, (step_host s word hrun hc).symm.trans h⟩⟩
    | resume word => exact .inr ⟨word, .inr ⟨rfl, (step_resume s word hrun hc).symm.trans h⟩⟩
  · rw [step_ended s hrun] at h
    cases h

/-- Everything the block's step that answers a next state can have done: a fault of the fetch, a word
that is no instruction, or the instruction of the fetched word (60_exceptions.md R497). -/
theorem blockStep_next {s t : State} (h : blockStep s = .next t) :
    (∃ tr, s.fetch = .error (.trap tr) ∧ t = s.halt tr none) ∨
      ∃ w, s.fetch = .ok w ∧
        ((∃ e, decode w = .error e) ∧ t = s.halt .reservedInstruction (some w) ∨
          ∃ i, decode w = .ok i ∧ exec i s = .next t) := by
  unfold blockStep at h
  rcases hf : s.fetch with (tr | a) | w <;> rw [hf] at h <;> dsimp only at h
  · cases h
    exact .inl ⟨tr, rfl, rfl⟩
  · cases h
  · refine .inr ⟨w, rfl, ?_⟩
    cases hd : decode w with
    | error e =>
      rw [hd] at h
      cases h
      exact .inl ⟨⟨e, rfl⟩, rfl⟩
    | ok i =>
      rw [hd] at h
      exact .inr ⟨i, rfl, h⟩

/-- Everything the resume can do: the check of the next pc, or the advance to it (41_control_flow.md
R260). -/
theorem resumeTurn_next {word : Word} {s t : State} (h : resumeTurn word s = .next t) :
    s.npc = 0#32 ∧ t = s.halt .undefinedJumpTarget (some word) ∨
      s.npc ≠ 0#32 ∧ t = { s with pc := s.npc, control := .block } := by
  unfold resumeTurn at h
  split at h
  case isTrue h0 =>
    cases h
    exact .inl ⟨h0, rfl⟩
  case isFalse h0 =>
    cases h
    exact .inr ⟨h0, rfl⟩

/-! ### The invariant through a step -/

theorem State.Inv.blockStep {s t : State} (h : s.Inv) (ht : blockStep s = .next t) : t.Inv := by
  obtain ⟨tr, -, rfl⟩ | ⟨w, -, ⟨-, rfl⟩ | ⟨i, -, hexec⟩⟩ := blockStep_next ht
  · exact h.halt tr none
  · exact h.halt .reservedInstruction (some w)
  · exact (exec_ends hexec).inv h

/-- The host's bytes are no stores of the run (log 17). -/
theorem State.Inv.hostTurn {s t : State} {word : Word} (h : s.Inv) (ht : hostTurn word s = .next t) :
    t.Inv := by
  obtain ⟨t', ht', -, -, -, -, -, -, -, -, hstored, hemb, hmem⟩ := hostTurn_next word s
  obtain rfl : t' = t := by simpa [ht'] using ht
  exact h.of_kept (hmem h.mem_wf) hstored hemb

theorem State.Inv.resumeTurn {s t : State} {word : Word} (h : s.Inv)
    (ht : resumeTurn word s = .next t) : t.Inv := by
  obtain ⟨-, rfl⟩ | ⟨-, rfl⟩ := resumeTurn_next ht
  · exact h.halt .undefinedJumpTarget (some word)
  · exact h.of_kept h.mem_wf rfl rfl

/-- Settles O9: each of the three turns of a step keeps the invariant. -/
theorem stepKeepsInv : Obligations.StepKeepsInv := by
  intro s t h hstep
  obtain ⟨-, ⟨-, hblock⟩ | ⟨word, ⟨-, hhost⟩ | ⟨-, hresume⟩⟩⟩ := step_next hstep
  · exact h.blockStep hblock
  · exact h.hostTurn hhost
  · exact h.resumeTurn hresume

end Sys2Proof.Machine
end

section
/-! The encoding: when a word is the word of a format (30_encoding.md section 2), decoding as the
opcode table (R157, R158), and decoding and encoding as each other's inverse (R140, R166). O1 to O4. -/

namespace Sys2Proof

/-! ### Words and their fields (30_encoding.md section 2) -/

/-- A word that joins two runs of bits has them as its fields. -/
theorem append_eq_iff {n m : Nat} {x : BitVec n} {y : BitVec m} {w : BitVec (n + m)} :
    x ++ y = w ↔ w.extractLsb' m n = x ∧ w.extractLsb' 0 m = y := by
  constructor
  · rintro rfl
    exact ⟨BitVec.extractLsb'_append_eq_left, BitVec.extractLsb'_append_eq_right⟩
  · rintro ⟨rfl, rfl⟩
    rw [BitVec.extractLsb'_append_extractLsb'_eq_extractLsb' (Nat.zero_add m).symm]
    exact BitVec.extractLsb'_eq_self

/-- The same for a field that joins two runs of bits. -/
theorem extract_eq_append_iff {k n m lo : Nat} {x : BitVec n} {y : BitVec m} {w : BitVec k} :
    w.extractLsb' lo (n + m) = x ++ y ↔ w.extractLsb' (lo + m) n = x ∧ w.extractLsb' lo m = y := by
  rw [← BitVec.extractLsb'_append_extractLsb'_eq_extractLsb' rfl, append_eq_iff,
    BitVec.extractLsb'_append_eq_left, BitVec.extractLsb'_append_eq_right, eq_comm, @eq_comm _ y]

/-! A word of a format is any word with the format's fields. -/

theorem formatR_eq_iff {op : BitVec 6} {a b c d : BitVec 5} {funct : BitVec 6} {w : Word} :
    formatR op a b c d funct = w ↔
      w.extractLsb' 26 6 = op ∧ w.extractLsb' 21 5 = a ∧ w.extractLsb' 16 5 = b ∧
        w.extractLsb' 11 5 = c ∧ w.extractLsb' 6 5 = d ∧ w.extractLsb' 0 6 = funct := by
  rw [formatR, append_eq_iff]
  simp only [extract_eq_append_iff, and_assoc]

theorem formatI_eq_iff {op : BitVec 6} {a b : BitVec 5} {imm : BitVec 16} {w : Word} :
    formatI op a b imm = w ↔
      w.extractLsb' 26 6 = op ∧ w.extractLsb' 21 5 = a ∧ w.extractLsb' 16 5 = b ∧
        w.extractLsb' 0 16 = imm := by
  rw [formatI, append_eq_iff]
  simp only [extract_eq_append_iff, and_assoc]

theorem formatJ_eq_iff {op : BitVec 6} {imm : BitVec 26} {w : Word} :
    formatJ op imm = w ↔
      w.extractLsb' 26 6 = op ∧ w.extractLsb' 0 26 = imm := by
  rw [formatJ, append_eq_iff]

theorem formatCIH_eq_iff {op : BitVec 6} {imm : BitVec 20} {w : Word} :
    formatCIH op imm = w ↔
      w.extractLsb' 26 6 = op ∧ w.extractLsb' 20 6 = 0#6 ∧ w.extractLsb' 0 20 = imm := by
  rw [formatCIH, append_eq_iff]
  simp only [extract_eq_append_iff, and_assoc]

theorem formatCIJ_eq_iff {op : BitVec 6} {a : BitVec 5} {imm : BitVec 12} {w : Word} :
    formatCIJ op a imm = w ↔
      w.extractLsb' 26 6 = op ∧ w.extractLsb' 21 5 = a ∧ w.extractLsb' 12 9 = 0#9 ∧
        w.extractLsb' 0 12 = imm := by
  rw [formatCIJ, append_eq_iff]
  simp only [extract_eq_append_iff, and_assoc]

theorem formatCLH_eq_iff {op : BitVec 6} {imm : BitVec 18} {w : Word} :
    formatCLH op imm = w ↔
      w.extractLsb' 26 6 = op ∧ w.extractLsb' 18 8 = 0#8 ∧ w.extractLsb' 0 18 = imm := by
  rw [formatCLH, append_eq_iff]
  simp only [extract_eq_append_iff, and_assoc]

theorem formatCLI_eq_iff {op : BitVec 6} {b : BitVec 5} {imm : BitVec 14} {w : Word} :
    formatCLI op b imm = w ↔
      w.extractLsb' 26 6 = op ∧ w.extractLsb' 21 5 = 0#5 ∧ w.extractLsb' 16 5 = b ∧
        w.extractLsb' 14 2 = 0#2 ∧ w.extractLsb' 0 14 = imm := by
  rw [formatCLI, append_eq_iff]
  simp only [extract_eq_append_iff, and_assoc]

theorem formatRT_eq_iff {a b : BitVec 5} {code : BitVec 10} {funct : BitVec 6} {w : Word} :
    formatRT a b code funct = w ↔
      w.extractLsb' 26 6 = 0#6 ∧ w.extractLsb' 21 5 = a ∧ w.extractLsb' 16 5 = b ∧
        w.extractLsb' 6 10 = code ∧ w.extractLsb' 0 6 = funct := by
  rw [formatRT, append_eq_iff]
  simp only [extract_eq_append_iff, and_assoc]

theorem formatRS_eq_iff {code : BitVec 20} {funct : BitVec 6} {w : Word} :
    formatRS code funct = w ↔
      w.extractLsb' 26 6 = 0#6 ∧ w.extractLsb' 6 20 = code ∧ w.extractLsb' 0 6 = funct := by
  rw [formatRS, append_eq_iff]
  simp only [extract_eq_append_iff, and_assoc]

/-- The five bits of a register field are the index it is read as (30_encoding.md R152). -/
theorem reg_regAt (w : Word) (lo : Nat) : reg (regAt w lo) = w.extractLsb' lo 5 := rfl

/-- A field that lies whole under the mask of a row is the row's in every word that matches it. -/
theorem Row.extract_of_matches {r : Row} {w : Word} (h : r.Matches w = true) (lo n : Nat)
    (hmask : r.mask.extractLsb' lo n = BitVec.allOnes n) :
    w.extractLsb' lo n = r.value.extractLsb' lo n := by
  rw [Row.Matches, beq_iff_eq] at h
  rw [← h, BitVec.extractLsb'_and, hmask, BitVec.and_allOnes]

/-! ### No word matches two rows (30_encoding.md R158) -/

/-- Two rows that share a word agree on the bits that both of their masks fix. -/
theorem Row.value_and_mask_comm {r q : Row} {w : Word} (hr : r.Matches w = true)
    (hq : q.Matches w = true) : r.value &&& q.mask = q.value &&& r.mask := by
  rw [Row.Matches, beq_iff_eq] at hr hq
  rw [← hr, ← hq, BitVec.and_assoc, BitVec.and_assoc, BitVec.and_comm r.mask]

/-- Any two rows of the table differ in a bit that both of their masks fix. -/
theorem opcodeTable_pairwise :
    opcodeTable.Pairwise (fun r q => r.value &&& q.mask ≠ q.value &&& r.mask) := by
  decide +kernel

/-- The row a word matches stands in one place of the table. -/
theorem opcodeTable_index_unique {w : Word} {j k : Nat} {r q : Row}
    (hj : opcodeTable[j]? = some r) (hk : opcodeTable[k]? = some q)
    (hr : r.Matches w = true) (hq : q.Matches w = true) : j = k := by
  obtain ⟨hjlt, rfl⟩ := List.getElem?_eq_some_iff.1 hj
  obtain ⟨hklt, rfl⟩ := List.getElem?_eq_some_iff.1 hk
  have differ := List.pairwise_iff_getElem.1 opcodeTable_pairwise
  rcases lt_trichotomy j k with h | h | h
  · exact absurd (Row.value_and_mask_comm hr hq) (differ j k hjlt hklt h)
  · exact h
  · exact absurd (Row.value_and_mask_comm hq hr) (differ k j hklt hjlt h)

/-- A word matches one row of the table at most. -/
theorem opcodeTable_row_unique {w : Word} {r q : Row} (hrmem : r ∈ opcodeTable)
    (hqmem : q ∈ opcodeTable) (hr : r.Matches w = true) (hq : q.Matches w = true) : r = q := by
  obtain ⟨j, hj⟩ := List.mem_iff_getElem?.1 hrmem
  obtain ⟨k, hk⟩ := List.mem_iff_getElem?.1 hqmem
  obtain rfl := opcodeTable_index_unique hj hk hr hq
  exact Option.some.inj (hj.symm.trans hk)

/-! ### What decode answers (30_encoding.md R157, R166) -/

/-- A word decodes to what a row that matches it reads from it. -/
theorem decode_eq_ok_iff {w : Word} {i : Instr} :
    decode w = .ok i ↔ ∃ r ∈ opcodeTable, r.Matches w = true ∧ r.build w = i := by
  unfold decode
  cases hfind : opcodeTable.find? (fun r => r.Matches w) with
  | none =>
    have hnone := List.find?_eq_none.1 hfind
    constructor
    · intro h
      cases h
    · rintro ⟨r, hmem, hr, -⟩
      exact absurd hr (hnone r hmem)
  | some q =>
    have hqmem := List.mem_of_find?_eq_some hfind
    have hq : q.Matches w = true := List.find?_some (p := (Row.Matches · w)) hfind
    constructor
    · intro h
      exact ⟨q, hqmem, hq, Except.ok.inj h⟩
    · rintro ⟨r, hrmem, hr, rfl⟩
      rw [opcodeTable_row_unique hrmem hqmem hr hq]

/-- A word that matches no row is refused by name (decision D44). -/
theorem decode_eq_error {w : Word} (h : ∀ r ∈ opcodeTable, r.Matches w = false) :
    decode w = .error (.reservedInstruction w) := by
  have hfind : opcodeTable.find? (fun r => r.Matches w) = none :=
    List.find?_eq_none.2 fun r hr => by simp [h r hr]
  rw [decode, hfind]

/-- Settles O3: two rows that share a word would agree where both masks fix a bit, and no two rows of
the table do; so the first row that `decode` finds is the only one. -/
theorem decodingIsTheTable : Obligations.DecodingIsTheTable := fun _ =>
  ⟨fun _ _ _ _ => opcodeTable_index_unique,
    fun r hmem hr => decode_eq_ok_iff.2 ⟨r, hmem, hr, rfl⟩,
    decode_eq_error⟩

/-! ### From the instruction to its word and back (30_encoding.md R140) -/

/-- A row of the table reads every well-formed instruction back from its word. -/
theorem Instr.has_row : ∀ i : Instr, Laws.Matches.Statement i
  | .add .. => Laws.Matches.add _ _ _
  | .sub .. => Laws.Matches.sub _ _ _
  | .and .. => Laws.Matches.and _ _ _
  | .or .. => Laws.Matches.or _ _ _
  | .xor .. => Laws.Matches.xor _ _ _
  | .nor .. => Laws.Matches.nor _ _ _
  | .slt .. => Laws.Matches.slt _ _ _
  | .sltu .. => Laws.Matches.sltu _ _ _
  | .addi .. => Laws.Matches.addi _ _ _
  | .slti .. => Laws.Matches.slti _ _ _
  | .sltiu .. => Laws.Matches.sltiu _ _ _
  | .andi .. => Laws.Matches.andi _ _ _
  | .ori .. => Laws.Matches.ori _ _ _
  | .xori .. => Laws.Matches.xori _ _ _
  | .sll .. => Laws.Matches.sll _ _ _
  | .srl .. => Laws.Matches.srl _ _ _
  | .sra .. => Laws.Matches.sra _ _ _
  | .sllv .. => Laws.Matches.sllv _ _ _
  | .srlv .. => Laws.Matches.srlv _ _ _
  | .srav .. => Laws.Matches.srav _ _ _
  | .ror .. => Laws.Matches.ror _ _ _
  | .rorr .. => Laws.Matches.rorr _ _ _
  | .mul .. => Laws.Matches.mul _ _ _ _
  | .mulu .. => Laws.Matches.mulu _ _ _ _
  | .div .. => Laws.Matches.div _ _ _ _
  | .divu .. => Laws.Matches.divu _ _ _ _
  | .clz .. => Laws.Matches.clz _ _ _
  | .seb .. => Laws.Matches.seb _ _
  | .seh .. => Laws.Matches.seh _ _
  | .ext .. => Laws.Matches.ext _ _ _ _
  | .movz .. => Laws.Matches.movz _ _ _
  | .movn .. => Laws.Matches.movn _ _ _
  | .movt .. => Laws.Matches.movt _ _
  | .movf .. => Laws.Matches.movf _ _
  | .jump .. => Laws.Matches.jump _
  | .call .. => Laws.Matches.call _
  | .jumpr .. => Laws.Matches.jumpr _
  | .callr .. => Laws.Matches.callr _
  | .jeq .. => Laws.Matches.jeq _ _ _
  | .jne .. => Laws.Matches.jne _ _ _
  | .jlez .. => Laws.Matches.jlez _ _
  | .jgtz .. => Laws.Matches.jgtz _ _
  | .jltz .. => Laws.Matches.jltz _ _
  | .jgez .. => Laws.Matches.jgez _ _
  | .bc1t .. => Laws.Matches.bc1t _
  | .bc1f .. => Laws.Matches.bc1f _
  | .rcall .. => Laws.Matches.rcall _
  | .ijmphi .. => Laws.Matches.ijmphi _
  | .ijmp .. => Laws.Matches.ijmp _ _
  | .ldi .. => Laws.Matches.ldi _ _
  | .ldihi .. => Laws.Matches.ldihi _
  | .teq .. => Laws.Matches.teq _ _ _
  | .brk .. => Laws.Matches.brk _
  | .syscall .. => Laws.Matches.syscall _
  | .addS .. => Laws.Matches.addS _ _ _
  | .addD .. => Laws.Matches.addD _ _ _
  | .subS .. => Laws.Matches.subS _ _ _
  | .subD .. => Laws.Matches.subD _ _ _
  | .mulS .. => Laws.Matches.mulS _ _ _
  | .mulD .. => Laws.Matches.mulD _ _ _
  | .divS .. => Laws.Matches.divS _ _ _
  | .divD .. => Laws.Matches.divD _ _ _
  | .sqrtS .. => Laws.Matches.sqrtS _ _
  | .sqrtD .. => Laws.Matches.sqrtD _ _
  | .absS .. => Laws.Matches.absS _ _
  | .absD .. => Laws.Matches.absD _ _
  | .negS .. => Laws.Matches.negS _ _
  | .negD .. => Laws.Matches.negD _ _
  | .movS .. => Laws.Matches.movS _ _
  | .movD .. => Laws.Matches.movD _ _
  | .maddS .. => Laws.Matches.maddS _ _ _ _
  | .maddD .. => Laws.Matches.maddD _ _ _ _
  | .msubS .. => Laws.Matches.msubS _ _ _ _
  | .msubD .. => Laws.Matches.msubD _ _ _ _
  | .cEqS .. => Laws.Matches.cEqS _ _
  | .cEqD .. => Laws.Matches.cEqD _ _
  | .cOleS .. => Laws.Matches.cOleS _ _
  | .cOleD .. => Laws.Matches.cOleD _ _
  | .cOltS .. => Laws.Matches.cOltS _ _
  | .cOltD .. => Laws.Matches.cOltD _ _
  | .cUeqS .. => Laws.Matches.cUeqS _ _
  | .cUeqD .. => Laws.Matches.cUeqD _ _
  | .cUleS .. => Laws.Matches.cUleS _ _
  | .cUleD .. => Laws.Matches.cUleD _ _
  | .cUltS .. => Laws.Matches.cUltS _ _
  | .cUltD .. => Laws.Matches.cUltD _ _
  | .cUnS .. => Laws.Matches.cUnS _ _
  | .cUnD .. => Laws.Matches.cUnD _ _
  | .movzS .. => Laws.Matches.movzS _ _ _
  | .movzD .. => Laws.Matches.movzD _ _ _
  | .movnS .. => Laws.Matches.movnS _ _ _
  | .movnD .. => Laws.Matches.movnD _ _ _
  | .movtS .. => Laws.Matches.movtS _ _
  | .movtD .. => Laws.Matches.movtD _ _
  | .movfS .. => Laws.Matches.movfS _ _
  | .movfD .. => Laws.Matches.movfD _ _
  | .cvtDS .. => Laws.Matches.cvtDS _ _
  | .cvtSD .. => Laws.Matches.cvtSD _ _
  | .cvtSW .. => Laws.Matches.cvtSW _ _
  | .cvtDW .. => Laws.Matches.cvtDW _ _
  | .cvtWS .. => Laws.Matches.cvtWS _ _
  | .cvtWD .. => Laws.Matches.cvtWD _ _
  | .roundWS .. => Laws.Matches.roundWS _ _
  | .roundWD .. => Laws.Matches.roundWD _ _
  | .ceilWS .. => Laws.Matches.ceilWS _ _
  | .ceilWD .. => Laws.Matches.ceilWD _ _
  | .floorWS .. => Laws.Matches.floorWS _ _
  | .floorWD .. => Laws.Matches.floorWD _ _
  | .truncWS .. => Laws.Matches.truncWS _ _
  | .truncWD .. => Laws.Matches.truncWD _ _
  | .mfc1 .. => Laws.Matches.mfc1 _ _
  | .mtc1 .. => Laws.Matches.mtc1 _ _
  | .mfhc1 .. => Laws.Matches.mfhc1 _ _
  | .mflc1 .. => Laws.Matches.mflc1 _ _
  | .mthc1 .. => Laws.Matches.mthc1 _ _
  | .mtlc1 .. => Laws.Matches.mtlc1 _ _
  | .ldb .. => Laws.Matches.ldb _ _ _
  | .ldbu .. => Laws.Matches.ldbu _ _ _
  | .ldh .. => Laws.Matches.ldh _ _ _
  | .ldhu .. => Laws.Matches.ldhu _ _ _
  | .ldw .. => Laws.Matches.ldw _ _ _
  | .ldwl .. => Laws.Matches.ldwl _ _ _
  | .ldwr .. => Laws.Matches.ldwr _ _ _
  | .stb .. => Laws.Matches.stb _ _ _
  | .sth .. => Laws.Matches.sth _ _ _
  | .stw .. => Laws.Matches.stw _ _ _
  | .stwl .. => Laws.Matches.stwl _ _ _
  | .stwr .. => Laws.Matches.stwr _ _ _
  | .ll .. => Laws.Matches.ll _ _ _
  | .sc .. => Laws.Matches.sc _ _ _
  | .lwc1 .. => Laws.Matches.lwc1 _ _ _
  | .ldc1 .. => Laws.Matches.ldc1 _ _ _
  | .swc1 .. => Laws.Matches.swc1 _ _ _
  | .sdc1 .. => Laws.Matches.sdc1 _ _ _

theorem decode_encode {i : Instr} (h : i.WellFormed = true) : decode (encode i) = .ok i :=
  decode_eq_ok_iff.2 (i.has_row h)

/-- Settles O1: the word of the instruction matches the instruction's row, which reads it back. -/
theorem decodeOfEncode : Obligations.DecodeOfEncode := fun _ => decode_encode

/-! ### From the word to its instruction and back (30_encoding.md R140) -/

/-- Every row reads operands that its instruction admits; the position and the size of ext come from
fields of five bits. -/
theorem build_wellFormed {r : Row} (hr : r ∈ opcodeTable) (w : Word) :
    (r.build w).WellFormed = true := by
  have hpos : (w.extractLsb' 6 5).toNat < 32 := (w.extractLsb' 6 5).isLt
  have hsize : (w.extractLsb' 11 5).toNat + 1 ≤ 32 := (w.extractLsb' 11 5).isLt
  fin_cases hr <;> simp [Instr.WellFormed, hpos, hsize, -BitVec.extractLsb'_toNat]

/-- Every row keeps every bit of a word that matches it: each field of the format is an operand that
`build` reads or lies under the row's mask. -/
theorem encode_build {r : Row} (hr : r ∈ opcodeTable) {w : Word} (h : r.Matches w = true) :
    encode (r.build w) = w := by
  fin_cases hr <;>
    simp (disch := decide) [encode, formatR_eq_iff, formatI_eq_iff, formatJ_eq_iff,
      formatCIH_eq_iff, formatCIJ_eq_iff, formatCLH_eq_iff, formatCLI_eq_iff, formatRT_eq_iff,
      formatRS_eq_iff, reg_regAt, Row.extract_of_matches h, -BitVec.extractLsb'_toNat]

/-- Settles O2: the word matches a row, whose instruction is well formed and keeps every bit. -/
theorem encodeOfDecode : Obligations.EncodeOfDecode := by
  intro w i h
  obtain ⟨r, hmem, hr, rfl⟩ := decode_eq_ok_iff.1 h
  exact ⟨build_wellFormed hmem w, encode_build hmem hr⟩

/-- A word decodes to the well-formed instruction it is the word of. -/
theorem decode_of_encode_eq {w : Word} {i : Instr} (h : i.WellFormed = true) (hw : encode i = w) :
    decode w = .ok i :=
  hw ▸ decode_encode h

/-- Settles O4: each of the words is the encoding of its instruction. -/
theorem decodeWords : Obligations.DecodeWords := by
  unfold Obligations.DecodeWords
  and_intros <;> exact decode_of_encode_eq rfl rfl

end Sys2Proof
end

section
/-! The integer instructions (40_integer.md): the rules for an instruction that writes one register, two
registers or none, the values of the operand forms in terms of the library's operations, and O18 to O26. -/

namespace Sys2Proof.Machine

/-! ### How an integer instruction ends -/

section

variable {i : Instr} {s u : State} {a : Attempt State} {t : Trap}

/-- One destination: the register file takes the value, in any spelling of it, and pc advances. -/
theorem complete_writeGpr (h : s.Advances) {r : Gpr} {v w : Word} (hv : v = w) :
    complete i s (.ok (s.writeGpr r v)) = .next { s with gpr := s.gpr.set r w, pc := s.pc + 4#32 } :=
  hv ▸ complete_ok i s _ h

/-- A check that stops the instruction raises its trap. -/
theorem raises_of_error (he : exec i s = complete i s a) (ha : a = .error (.trap t)) : Raises i s t := by
  rw [Raises, he, ha]
  rfl

/-- An instruction past its checks raises nothing but UndefinedJumpTarget: it moves pc, or it halts for
that reason. -/
theorem not_raises_of_ok (he : exec i s = complete i s (.ok u)) (ht : t ≠ .undefinedJumpTarget) :
    ¬ Raises i s t := by
  intro hr
  rw [Raises, he] at hr
  by_cases hwrap : s.pc + 4#32 = 0#32
  · rw [complete_wrap i s u hwrap] at hr
    have hstatus := congrArg State.status (Host.Outcome.next.inj hr)
    injection hstatus with htrap
    exact ht htrap.symm
  · rw [complete_ok i s u hwrap] at hr
    have hpc : s.pc + 4#32 = s.pc := congrArg State.pc (Host.Outcome.next.inj hr)
    exact absurd hpc (by simp)

end

/-! ### The two destinations of mul, mulu, div and divu (R204) -/

section

variable {s : State} {r rd rh : Gpr} {low high : Word}

theorem State.writeUnlessZero_of_ne_zero (hr : r ≠ 0) : s.writeUnlessZero r low = s.writeGpr r low :=
  if_neg hr

theorem State.writePair_of_ne (hne : rd ≠ rh) :
    s.writePair rd rh low high = (s.writeUnlessZero rd low).writeUnlessZero rh high :=
  if_neg fun ⟨heq, _⟩ => hne heq

/-- Two destinations that differ and are not 0 take a result each. -/
theorem State.writePair_both (hd : rd ≠ 0) (hh : rh ≠ 0) (hne : rd ≠ rh) :
    s.writePair rd rh low high = { s with gpr := (s.gpr.set rd low).set rh high } := by
  rw [State.writePair_of_ne hne, State.writeUnlessZero_of_ne_zero hd,
    State.writeUnlessZero_of_ne_zero hh]
  rfl

/-- The same for an instruction that ends there. -/
theorem complete_writePair (i : Instr) (h : s.Advances) (hd : rd ≠ 0) (hh : rh ≠ 0) (hne : rd ≠ rh) :
    complete i s (.ok (s.writePair rd rh low high)) =
      .next { s with gpr := (s.gpr.set rd low).set rh high, pc := s.pc + 4#32 } := by
  rw [complete_ok i s _ h, State.writePair_both hd hh hne]

/-- A high destination 0 is discarded. -/
theorem State.writePair_low (hd : rd ≠ 0) : s.writePair rd 0 low high = s.writeGpr rd low := by
  rw [State.writePair_of_ne hd, State.writeUnlessZero_of_ne_zero hd]
  rfl

/-- A low destination 0 is discarded. -/
theorem State.writePair_high (hh : rh ≠ 0) : s.writePair 0 rh low high = s.writeGpr rh high := by
  rw [State.writePair_of_ne hh.symm]
  exact State.writeUnlessZero_of_ne_zero hh

/-- Two destinations 0 discard both results. -/
theorem State.writePair_zero : s.writePair 0 0 low high = s := rfl

/-- Two equal destinations that are not 0 end with the drawn result (log 10). -/
theorem State.writePair_self (hr : r ≠ 0) :
    s.writePair r r low high =
      { s.writeGpr r (if Config.draw s.draws then low else high) with draws := s.draws + 1 } :=
  if_pos ⟨rfl, hr⟩

end

/-! ### Values of the operand forms -/

theorem wordOfBool_slt (a b : Word) :
    wordOfBool (a.slt b) = if a.toInt < b.toInt then 1#32 else 0#32 := by
  simp [wordOfBool, BitVec.slt_eq_decide]

theorem wordOfBool_ult (a b : Word) :
    wordOfBool (a.ult b) = if a.toNat < b.toNat then 1#32 else 0#32 := by
  simp [wordOfBool, BitVec.ult_eq_decide]

/-- Sign extension keeps the value, so slti compares with the immediate itself. -/
theorem wordOfBool_slt_signExtend (a : Word) (imm : Half) :
    wordOfBool (a.slt (imm.signExtend 32)) = if a.toInt < imm.toInt then 1#32 else 0#32 := by
  rw [wordOfBool_slt, BitVec.toInt_signExtend_of_le (by decide)]

theorem setWidth_half (imm : Half) : imm.setWidth 32 = 0#16 ++ imm :=
  BitVec.setWidth_eq_append (by decide)

theorem shiftAmount_eq (v : Word) : shiftAmount v = v.toNat % 32 :=
  BitVec.extractLsb'_toNat 0 5 v

theorem rotateRight_eq (v : Word) {n : Nat} (hn : n < 32) : rotateRight v n = v.rotateRight n := by
  rw [BitVec.rotateRight_def, Nat.mod_eq_of_lt hn]
  rfl

/-! ### O18 to O20: one destination, no check -/

/-- Settles O18: each instruction is one write of its value, and each word is its R format. -/
theorem registerArithmetic : Obligations.RegisterArithmetic := fun _ _ _ _ h =>
  ⟨complete_writeGpr h rfl, complete_writeGpr h rfl, complete_writeGpr h rfl, complete_writeGpr h rfl,
    complete_writeGpr h rfl, complete_writeGpr h rfl, complete_writeGpr h (wordOfBool_slt _ _),
    complete_writeGpr h (wordOfBool_ult _ _), rfl, rfl, rfl, rfl, rfl, rfl, rfl, rfl⟩

/-- Settles O19: as O18, with the second operand the extended immediate. -/
theorem immediates : Obligations.Immediates := fun _ _ _ imm h =>
  ⟨complete_writeGpr h rfl, complete_writeGpr h (wordOfBool_slt_signExtend _ _),
    complete_writeGpr h (wordOfBool_ult _ _), complete_writeGpr h (congrArg _ (setWidth_half imm)),
    complete_writeGpr h (congrArg _ (setWidth_half imm)),
    complete_writeGpr h (congrArg _ (setWidth_half imm))⟩

/-- Settles O20: the amount of a register shift is its value modulo 32, and below 32 the model's rotation
is the library's. -/
theorem shiftsAndRotates : Obligations.ShiftsAndRotates := fun s rd rt rs sa h =>
  have hn := shiftAmount_eq (s.readGpr rs)
  ⟨complete_writeGpr h rfl, complete_writeGpr h rfl, complete_writeGpr h rfl,
    complete_writeGpr h (congrArg (s.readGpr rt <<< ·) hn),
    complete_writeGpr h (congrArg (s.readGpr rt >>> ·) hn),
    complete_writeGpr h (congrArg (s.readGpr rt).sshiftRight hn),
    complete_writeGpr h (rotateRight_eq _ sa.isLt),
    complete_writeGpr h (hn ▸ rotateRight_eq _ (Nat.mod_lt _ (by decide)))⟩

/-! ### O21: products (R202) -/

theorem highWord_append_lowWord (p : DWord) : highWord p ++ lowWord p = p :=
  (BitVec.extractLsb'_append_extractLsb'_eq_extractLsb' rfl).trans BitVec.extractLsb'_eq_self

/-- The least product is the most negative word times the greatest one. -/
theorem le_toInt_mul_toInt (a b : Word) : -2 ^ 62 + 2 ^ 31 ≤ a.toInt * b.toInt := by
  have ha : -2 ^ 31 ≤ a.toInt := a.le_toInt
  have ha' : a.toInt ≤ 2 ^ 31 - 1 := Int.le_sub_one_of_lt a.toInt_lt
  have hb : -2 ^ 31 ≤ b.toInt := b.le_toInt
  have hb' : b.toInt ≤ 2 ^ 31 - 1 := Int.le_sub_one_of_lt b.toInt_lt
  rcases le_total 0 a.toInt with h | h
  · have hab := mul_le_mul_of_nonneg_left hb h
    omega
  · have hab := mul_le_mul_of_nonpos_left hb' h
    omega

theorem signedProduct_toInt (a b : Word) : (signedProduct a b).toInt = a.toInt * b.toInt := by
  have hlow := le_toInt_mul_toInt a b
  have hhigh : a.toInt * b.toInt ≤ 2 ^ 62 := BitVec.toInt_mul_toInt_le
  exact BitVec.toInt_ofInt_eq_self (by decide) (by omega) (by omega)

theorem toNat_mul_toNat_le (a b : Word) : a.toNat * b.toNat ≤ (2 ^ 32 - 1) ^ 2 := by
  rw [sq]
  exact Nat.mul_le_mul (Nat.le_pred_of_lt a.isLt) (Nat.le_pred_of_lt b.isLt)

theorem unsignedProduct_toNat (a b : Word) : (unsignedProduct a b).toNat = a.toNat * b.toNat :=
  Nat.mod_eq_of_lt ((toNat_mul_toNat_le a b).trans_lt (by decide))

/-- Settles O21: the two words are the halves of the product's 64-bit pattern, which holds the product
exactly. -/
theorem multiplyReconstructs : Obligations.MultiplyReconstructs := by
  intro s rd rh rs rt h hd hh hne
  constructor
  · have hp := signedProduct_toInt s.gpr[rs] s.gpr[rt]
    refine ⟨_, _, ?_, ?_, ?_, complete_writePair _ h hd hh hne⟩ <;> rw [highWord_append_lowWord]
    · exact hp
    · exact (le_toInt_mul_toInt _ _).trans_eq hp.symm
    · exact hp.trans_le BitVec.toInt_mul_toInt_le
  · have hp := unsignedProduct_toNat s.gpr[rs] s.gpr[rt]
    refine ⟨_, _, ?_, ?_, complete_writePair _ h hd hh hne⟩ <;> rw [highWord_append_lowWord]
    · exact hp
    · exact hp.trans_le (toNat_mul_toNat_le _ _)

/-! ### O22: quotients and remainders (R203) -/

theorem signedQuotient_eq_sdiv (a b : Word) : signedQuotient a b = a.sdiv b :=
  BitVec.eq_of_toInt_eq ((BitVec.toInt_ofInt _).trans (BitVec.toInt_sdiv a b).symm)

/-- The quotient fits a word in every case but the one checkQuotient excludes. -/
theorem signedQuotient_toInt {a b : Word} (h : ¬ (a = 0x80000000#32 ∧ b = 0xFFFFFFFF#32)) :
    (signedQuotient a b).toInt = a.toInt.tdiv b.toInt := by
  rw [signedQuotient_eq_sdiv]
  exact BitVec.toInt_sdiv_of_ne_or_ne a b (not_and_or.1 h)

theorem signedRemainder_toInt (a b : Word) : (signedRemainder a b).toInt = a.toInt.tmod b.toInt := by
  rw [signedRemainder, ← BitVec.toInt_srem, BitVec.ofInt_toInt]

theorem unsignedQuotient_toNat (a b : Word) : (unsignedQuotient a b).toNat = a.toNat / b.toNat :=
  Nat.mod_eq_of_lt ((Nat.div_le_self _ _).trans_lt a.isLt)

theorem unsignedRemainder_toNat (a b : Word) : (unsignedRemainder a b).toNat = a.toNat % b.toNat :=
  Nat.mod_eq_of_lt ((Nat.mod_le _ _).trans_lt a.isLt)

/-- A remainder is smaller than the divisor in magnitude. -/
theorem abs_tmod_lt (a : ℤ) {b : ℤ} (hb : b ≠ 0) : |a.tmod b| < |b| := by
  rw [Int.abs_eq_natAbs, Int.abs_eq_natAbs, Int.natAbs_tmod]
  exact_mod_cast Nat.mod_lt _ (Int.natAbs_pos.2 hb)

/-- A remainder is not positive when the dividend is not. -/
theorem tmod_nonpos {a : ℤ} (b : ℤ) (ha : a ≤ 0) : a.tmod b ≤ 0 := by
  have h := Int.tmod_nonneg b (neg_nonneg.2 ha)
  rwa [Int.neg_tmod, neg_nonneg] at h

theorem checkDivisor_zero : checkDivisor 0#32 = .error (.trap .divideByZero) := rfl

theorem checkDivisor_of_ne {b : Word} (hb : b ≠ 0#32) : checkDivisor b = .ok () := if_neg hb

theorem checkQuotient_of_not {a b : Word} (h : ¬ (a = 0x80000000#32 ∧ b = 0xFFFFFFFF#32)) :
    checkQuotient a b = .ok () := if_neg h

section

variable (s : State) (rd rh rs rt : Gpr)

/-- div past its two checks (R229). -/
theorem exec_div (hb : s.gpr[rt] ≠ 0#32)
    (h : ¬ (s.gpr[rs] = 0x80000000#32 ∧ s.gpr[rt] = 0xFFFFFFFF#32)) :
    exec (.div rd rh rs rt) s = complete (.div rd rh rs rt) s (.ok (s.writePair rd rh
      (signedQuotient s.gpr[rs] s.gpr[rt]) (signedRemainder s.gpr[rs] s.gpr[rt]))) := by
  simp only [exec, execDiv, State.readGpr_eq, checkDivisor_of_ne hb, checkQuotient_of_not h,
    Attempt.ok_bind]
  rfl

/-- divu past its check (R230). -/
theorem exec_divu (hb : s.gpr[rt] ≠ 0#32) :
    exec (.divu rd rh rs rt) s = complete (.divu rd rh rs rt) s (.ok (s.writePair rd rh
      (unsignedQuotient s.gpr[rs] s.gpr[rt]) (unsignedRemainder s.gpr[rs] s.gpr[rt]))) := by
  simp only [exec, execDivu, State.readGpr_eq, checkDivisor_of_ne hb, Attempt.ok_bind]
  rfl

/-- A divisor 0 stops both (60_exceptions.md R485). -/
theorem raises_divideByZero (hb : s.gpr[rt] = 0#32) :
    Raises (.div rd rh rs rt) s .divideByZero ∧ Raises (.divu rd rh rs rt) s .divideByZero :=
  ⟨raises_of_error rfl (by simp only [State.readGpr_eq, hb, checkDivisor_zero, Attempt.error_bind]),
    raises_of_error rfl (by simp only [State.readGpr_eq, hb, checkDivisor_zero, Attempt.error_bind])⟩

/-- The quotient 2^31 stops div (60_exceptions.md R486). -/
theorem raises_divideOverflow (ha : s.gpr[rs] = 0x80000000#32) (hb : s.gpr[rt] = 0xFFFFFFFF#32) :
    Raises (.div rd rh rs rt) s .divideOverflow :=
  raises_of_error rfl (by rw [State.readGpr_eq, State.readGpr_eq, ha, hb]; rfl)

end

/-- Settles O22: the faults are the checks' answers, and past them the words are the library's quotient
and remainder, rounded toward zero. -/
theorem divide : Obligations.Divide := by
  intro s rd rh rs rt
  refine ⟨raises_divideByZero s rd rh rs rt,
    fun ha hb => ⟨raises_divideOverflow s rd rh rs rt ha hb, ?_⟩,
    fun h hd hh hne hb => ⟨fun hfits => ?_, ?_⟩⟩
  · have hb0 : s.gpr[rt] ≠ 0#32 := hb ▸ (by decide)
    exact not_raises_of_ok (exec_divu s rd rh rs rt hb0) (by decide)
  · refine ⟨_, _, ?_, ?_, ?_, ?_,
      (exec_div s rd rh rs rt hb hfits).trans (complete_writePair _ h hd hh hne)⟩
    · rw [signedQuotient_toInt hfits, signedRemainder_toInt, Int.tdiv_mul_add_tmod]
    · rw [signedRemainder_toInt]
      exact abs_tmod_lt _ fun h0 => hb (BitVec.toInt_inj.1 h0)
    · rw [signedRemainder_toInt]
      exact Int.tmod_nonneg _
    · rw [signedRemainder_toInt]
      exact tmod_nonpos _
  · refine ⟨_, _, ?_, ?_, (exec_divu s rd rh rs rt hb).trans (complete_writePair _ h hd hh hne)⟩
    · rw [unsignedQuotient_toNat, unsignedRemainder_toNat, Nat.div_add_mod']
    · rw [unsignedRemainder_toNat]
      exact Nat.mod_lt _ (Nat.pos_of_ne_zero fun h0 => hb (BitVec.eq_of_toNat_eq h0))

/-! ### O23: every choice of destinations (R204) -/

/-- Settles O23: the two results do not depend on the destinations, and each choice of destinations is a
case of the pair write. -/
theorem discardAndDraw : Obligations.DiscardAndDraw := by
  intro s rs rt i h hi
  have hpair : ∃ low high, ∀ rd rh,
      exec (i rd rh) s = complete (i rd rh) s (.ok (s.writePair rd rh low high)) := by
    rcases hi with rfl | rfl | ⟨rfl, hb, hfits⟩ | ⟨rfl, hb⟩
    · exact ⟨_, _, fun _ _ => rfl⟩
    · exact ⟨_, _, fun _ _ => rfl⟩
    · exact ⟨_, _, fun rd rh => exec_div s rd rh rs rt hb hfits⟩
    · exact ⟨_, _, fun rd rh => exec_divu s rd rh rs rt hb⟩
  obtain ⟨low, high, hexec⟩ := hpair
  refine ⟨low, high, fun rd rh hd hh hne => ?_, fun rd hd => ?_, fun rh hh => ?_, ?_, fun r hr => ?_⟩
  · rw [hexec, complete_writePair _ h hd hh hne]
  · rw [hexec, State.writePair_low hd, complete_writeGpr h rfl]
  · rw [hexec, State.writePair_high hh, complete_writeGpr h rfl]
  · rw [hexec, State.writePair_zero, complete_ok _ _ _ h]
  · refine ⟨if Config.draw s.draws then low else high, s.draws + 1, ite_eq_or_eq .., ?_⟩
    rw [hexec, State.writePair_self hr, complete_ok _ _ _ h]
    rfl

/-! ### O24: bit counts and sign extension (R231 to R233) -/

/-- What the count means: below bit n it passes that many zeros and stops at a 1, or at the end. -/
theorem zerosBelow_spec (v : Word) (n : Nat) :
    zerosBelow v n ≤ n ∧ (∀ k < n, n - zerosBelow v n ≤ k → v.getLsbD k = false) ∧
      (zerosBelow v n < n → v.getLsbD (n - 1 - zerosBelow v n) = true) := by
  induction n with
  | zero => simp [zerosBelow]
  | succ n ih =>
    obtain ⟨hle, hzeros, hone⟩ := ih
    rw [zerosBelow]
    split_ifs with hn
    · exact ⟨by omega, fun k hk hk' => by omega, fun _ => hn⟩
    · refine ⟨by omega, fun k hk hk' => ?_, fun hlt => ?_⟩
      · obtain rfl | hkn : k = n ∨ k < n := by omega
        · simpa using hn
        · exact hzeros k hkn (by omega)
      · rw [Nat.add_sub_cancel, Nat.add_comm, ← Nat.sub_sub]
        exact hone (by omega)

/-- Settles O24: the count of clz is its meaning at bit 32, and each word is its R format. -/
theorem bitManipulation : Obligations.BitManipulation := by
  intro s rd rs ign h
  obtain ⟨hle, hzeros, hone⟩ := zerosBelow_spec s.gpr[rs] 32
  exact ⟨⟨_, hle, complete_writeGpr h rfl, hzeros, hone⟩, complete_writeGpr h rfl,
    complete_writeGpr h rfl, rfl, rfl, rfl⟩

/-! ### O25: fields (R234) -/

theorem checkField_of_lt {pos size : Nat} (h : 32 < pos + size) :
    checkField pos size = .error (.trap .illegalExtField) := if_pos h

theorem checkField_of_le {pos size : Nat} (h : pos + size ≤ 32) : checkField pos size = .ok () :=
  if_neg (Nat.not_lt.2 h)

theorem getLsbD_bitField (v : Word) (pos size : Nat) {k : Nat} (hk : k < 32) :
    (bitField v pos size).getLsbD k = (decide (k < size) && v.getLsbD (pos + k)) := by
  rw [bitField, BitVec.getLsbD_setWidth, decide_eq_true hk, Bool.true_and,
    BitVec.getLsbD_extractLsb']

/-- Settles O25: the field check decides the case, and the written word is the field, bit by bit. -/
theorem extractField : Obligations.ExtractField := by
  intro s rt rs pos size _
  refine ⟨fun hpast => ?_, fun hfits h => ⟨bitField s.gpr[rs] pos size, ?_, fun k hk =>
    getLsbD_bitField _ _ _ hk⟩⟩
  · exact raises_of_error rfl (by rw [checkField_of_lt hpast]; rfl)
  · have hexec : exec (.ext rt rs pos size) s = complete (.ext rt rs pos size) s
        (.ok (s.writeGpr rt (bitField s.gpr[rs] pos size))) := by
      simp only [exec, execExt, checkField_of_le hfits, Attempt.ok_bind]
      rfl
    rw [hexec, complete_writeGpr h rfl]

/-! ### O26: conditional moves (R235 to R238) -/

/-- An instruction that writes its destination only under a guard. -/
theorem complete_ite_writeGpr {i : Instr} {s : State} (h : s.Advances) (c : Prop) [Decidable c] (r : Gpr)
    (v : Word) :
    complete i s (.ok (if c then s.writeGpr r v else s)) =
      .next (if c then { s with gpr := s.gpr.set r v, pc := s.pc + 4#32 }
        else { s with pc := s.pc + 4#32 }) := by
  split_ifs
  · exact complete_writeGpr h rfl
  · exact complete_ok i s s h

theorem State.readCc_unwritten {s : State} (h : s.cc.written = false) :
    s.readCc = .error (.trap (.unwrittenState .cc)) :=
  Marked.read_unwritten _ _ h

/-- Settles O26: a guard from a register is always there, one from cc only once cc is written. -/
theorem conditionalMoves : Obligations.ConditionalMoves := by
  intro s rd rs rt
  refine ⟨fun h => complete_ite_writeGpr h _ rd _, fun h => ?_, fun h hcc => ?_, fun h hcc => ?_,
    fun hcc => ⟨?_, ?_⟩⟩
  · rw [← complete_ite_writeGpr h, ite_not]
    rfl
  · rw [← complete_ite_writeGpr h]
    simp only [exec, execMovt, State.readCc_written s hcc, Attempt.ok_bind]
    rfl
  · rw [← complete_ite_writeGpr h]
    simp only [exec, execMovf, State.readCc_written s hcc, Attempt.ok_bind]
    cases s.cc.val <;> rfl
  · exact raises_of_error rfl (by rw [State.readCc_unwritten hcc]; rfl)
  · exact raises_of_error rfl (by rw [State.readCc_unwritten hcc]; rfl)

end Sys2Proof.Machine
end

section
/-! The check of the next pc (41_control_flow.md R260): no running block has pc 0, and an instruction that
names no target ends there with a fault where it would complete elsewhere (O16). -/

namespace Sys2Proof.Machine

/-! ### No running block has pc 0 -/

/-- A running state that an instruction gives is past the check of the next pc, or handed to the host. -/
theorem Ends.pc_ne_zero_or_called {i : Instr} {s t : State} (h : Ends i s t)
    (hrun : t.status = .running) :
    t.pc ≠ 0#32 ∨ i.isSyscall = true ∧ t.control = .host (encode i) := by
  cases h with
  | halted => cases hrun
  | called hcall => exact .inr ⟨hcall, rfl⟩
  | reached _ _ hp => exact .inl hp

theorem blockStep_pc_ne_zero {s t : State} (h : blockStep s = .next t) (hrun : t.status = .running)
    (hblock : t.control = .block) : t.pc ≠ 0#32 := by
  obtain ⟨tr, -, rfl⟩ | ⟨w, -, ⟨-, rfl⟩ | ⟨i, -, hexec⟩⟩ := blockStep_next h
  · cases hrun
  · cases hrun
  · obtain hp | ⟨-, hhost⟩ := (exec_ends hexec).pc_ne_zero_or_called hrun
    · exact hp
    · cases hblock.symm.trans hhost

theorem exec_pc_ne_zero {i : Instr} {s t : State} (hi : i.isSyscall = false) (h : exec i s = .next t)
    (hrun : t.status = .running) : t.pc ≠ 0#32 := by
  obtain hp | ⟨hcall, -⟩ := (exec_ends h).pc_ne_zero_or_called hrun
  · exact hp
  · cases hi.symm.trans hcall

/-- The host's turn never gives the block its turn in a running machine. -/
theorem hostTurn_not_block {s t : State} {word : Word} (h : hostTurn word s = .next t)
    (hrun : t.status = .running) : t.control ≠ .block := by
  obtain ⟨t', ht', hend, -⟩ := hostTurn_next word s
  obtain rfl : t' = t := by simpa [ht'] using h
  obtain ⟨-, hc⟩ | ⟨n, hn⟩ | hfatal := hend
  · simp [hc]
  · simp [hn] at hrun
  · simp [hfatal] at hrun

theorem resumeTurn_pc_ne_zero {s t : State} {word : Word} (h : resumeTurn word s = .next t)
    (hrun : t.status = .running) : t.pc ≠ 0#32 := by
  obtain ⟨-, rfl⟩ | ⟨hp, rfl⟩ := resumeTurn_next h
  · cases hrun
  · exact hp

theorem step_pc_ne_zero {s t : State} (h : step s = .next t) (hrun : t.status = .running)
    (hblock : t.control = .block) : t.pc ≠ 0#32 := by
  obtain ⟨-, ⟨-, hstep⟩ | ⟨word, ⟨-, hhost⟩ | ⟨-, hresume⟩⟩⟩ := step_next h
  · exact blockStep_pc_ne_zero hstep hrun hblock
  · exact absurd hblock (hostTurn_not_block hhost hrun)
  · exact resumeTurn_pc_ne_zero hresume hrun

/-! ### The checks of an instruction do not read pc -/

/-- Two attempts stop alike: for the same reason, or neither does, whatever values they give. -/
def Attempt.StopAlike {α β : Type} (a : Attempt α) (b : Attempt β) : Prop :=
  a.map (fun _ => ()) = b.map fun _ => ()

namespace Attempt.StopAlike

variable {α α' β β' : Type}

theorem of_ok {v : α} {w : β} : StopAlike (.ok v) (.ok w) := rfl

/-- Two sequences that begin with the same check or read. -/
theorem bind {a : Attempt β} {k : β → Attempt α} {k' : β → Attempt α'}
    (hk : ∀ v, StopAlike (k v) (k' v)) : StopAlike (a >>= k) (a >>= k') := by
  cases a with
  | error => rfl
  | ok v => exact hk v

/-- Two sequences whose beginnings stop alike, and whose rests do whatever value those give. -/
theorem seq {a : Attempt β} {a' : Attempt β'} {k : β → Attempt α} {k' : β' → Attempt α'}
    (ha : StopAlike a a') (hk : ∀ v v', StopAlike (k v) (k' v')) : StopAlike (a >>= k) (a' >>= k') := by
  cases a with
  | error e =>
    cases a' with
    | error => cases ha; rfl
    | ok => cases ha
  | ok v =>
    cases a' with
    | error => cases ha
    | ok v' => exact hk v v'

/-- Two choices on the same condition. -/
theorem ite {c : Prop} [Decidable c] {a b : Attempt α} {a' b' : Attempt α'} (ha : StopAlike a a')
    (hb : StopAlike b b') : StopAlike (if c then a else b) (if c then a' else b') := by
  split_ifs
  · exact ha
  · exact hb

theorem eq_ok {a : Attempt α} {v : β} (h : StopAlike a (.ok v)) : ∃ u, a = .ok u := by
  cases a with
  | error => cases h
  | ok u => exact ⟨u, rfl⟩

end Attempt.StopAlike

/-- The completion of an instruction that names no target: an attempt, as a function of the state it
begins in, that stops alike at every pc. -/
theorem exec_eq_complete {i : Instr} (hi : i.transfers = false) (hcall : i.isSyscall = false) :
    ∃ a : State → Attempt State, (∀ s, exec i s = complete i s (a s)) ∧
      ∀ (s : State) (pc : Word), (a s).StopAlike (a { s with pc := pc }) := by
  unfold exec
  cases i with
  | jump | call | jumpr | callr | rcall | jeq | jne | jlez | jgtz | jltz | jgez | bc1t | bc1f | ijmp =>
    cases hi
  | syscall => cases hcall
  | brk => exact ⟨fun _ => .error (.trap .break), fun _ => rfl, fun _ _ => rfl⟩
  | mul | mulu => exact ⟨fun _ => .ok _, fun _ => rfl, fun _ _ => .of_ok⟩
  | teq => exact ⟨_, fun _ => rfl, fun _ _ => .ite rfl .of_ok⟩
  | sc =>
    exact ⟨_, fun _ => rfl, fun _ _ =>
      .bind fun _ => .seq (.bind fun _ => .of_ok) fun _ _ => .of_ok⟩
  | movzS | movnS | movtS | movfS =>
    exact ⟨_, fun _ => rfl, fun _ _ => .bind fun _ => .ite (.bind fun _ => .of_ok) .of_ok⟩
  | movzD | movnD | movtD | movfD =>
    exact ⟨_, fun _ => rfl, fun _ _ =>
      .bind fun _ => .bind fun _ => .bind fun _ => .ite (.bind fun _ => .of_ok) .of_ok⟩
  | _ => -- its checks and reads, none of them of pc, and then its writes
    refine ⟨_, fun _ => rfl, fun _ _ => ?_⟩
    repeat refine .bind fun _ => ?_
    exact .of_ok

/-- Where the sequential advance reaches 0, such an instruction raises UndefinedJumpTarget if it would
complete at another pc (the spec's decision D6). -/
theorem raises_of_advance_zero {i : Instr} {s t : State} {pc : Word} (hi : i.transfers = false)
    (hcall : i.isSyscall = false) (hwrap : s.pc + 4#32 = 0#32)
    (h : exec i { s with pc := pc } = .next t) (hrun : t.status = .running) :
    Raises i s .undefinedJumpTarget := by
  obtain ⟨a, ha, halike⟩ := exec_eq_complete hi hcall
  obtain ⟨tr, rfl⟩ | ⟨u, hu, -, -⟩ := complete_next ((ha _).symm.trans h)
  · cases hrun
  · obtain ⟨v, hv⟩ := (hu ▸ halike s pc).eq_ok
    rw [Raises, ha, hv]
    exact complete_wrap i s v hwrap

/-- Settles O16: every end of a step that gives the block its turn is past the check of the next pc, and
the checks that come before it do not read pc. -/
theorem nextPcNotZero : Obligations.NextPcNotZero := fun _ _ =>
  ⟨step_pc_ne_zero, fun _ hcall =>
    ⟨exec_pc_ne_zero hcall, fun _ hi hwrap _ h hrun =>
      raises_of_advance_zero hi hcall hwrap h hrun⟩⟩

end Sys2Proof.Machine
end

section
/-! The control transfers (41_control_flow.md, and rcall of 42_compact.md): where a transfer and a branch
go, said once, and O27 to O30. -/

namespace Sys2Proof.Machine

/-- `i`, begun in `s`, goes to `t` with its writes done in `u`, or raises UndefinedJumpTarget and writes
nothing (41_control_flow.md R260, 60_exceptions.md R484). -/
def GoesTo (i : Instr) (s u : State) (t : Word) : Prop :=
  (t ≠ 0#32 → exec i s = .next { u with pc := t }) ∧
    (t = 0#32 → Raises i s .undefinedJumpTarget)

section

variable {i : Instr} {s u : State} {t : Word}

/-- A transfer past its checks goes to the target it names. -/
theorem goesTo_of_transfer (he : exec i s = transfer i s (.ok (u, t))) : GoesTo i s u t := by
  refine ⟨fun ht => he.trans (transfer_ok i s u t ht), ?_⟩
  rintro rfl
  exact he.trans (transfer_zero i s u)

/-- A branch whose condition is there goes to the relative target when it is taken and to npc when not
(41_control_flow.md R262). -/
theorem goesTo_of_branch {c : Attempt Bool} {b : Bool} {taken : Prop} {imm : BitVec 16}
    (he : exec i s = branch i s c imm) (hc : c = .ok b) (hb : taken ↔ b = true)
    (hyes : taken → t = s.relTarget imm) (hno : ¬ taken → t = s.npc) : GoesTo i s s t := by
  subst hc
  refine goesTo_of_transfer (he.trans ?_)
  cases b with
  | false => rw [hno (by simp [hb])]; rfl
  | true => rw [hyes (hb.2 rfl)]; rfl

/-- A branch whose condition is not there raises the trap of its read. -/
theorem raises_of_branch {c : Attempt Bool} {tr : Trap} {imm : BitVec 16}
    (he : exec i s = branch i s c imm) (hc : c = .error (.trap tr)) : Raises i s tr := by
  subst hc
  exact he

end

/-- Settles O27: both are a transfer without writes. -/
theorem jumps : Obligations.Jumps := by
  intro s rs imm
  obtain ⟨hjump, hjump0⟩ := goesTo_of_transfer (i := .jump imm) (s := s) rfl
  obtain ⟨hjumpr, hjumpr0⟩ := goesTo_of_transfer (i := .jumpr rs) (s := s) rfl
  exact ⟨hjump, hjump0, hjumpr, hjumpr0, rfl, rfl⟩

/-- Settles O28: each is a transfer whose one write is the link, with a target of the old state. -/
theorem calls : Obligations.Calls := by
  rintro s i t (⟨imm, rfl, rfl⟩ | ⟨rs, rfl, rfl⟩ | ⟨imm, rfl, rfl⟩)
  all_goals exact goesTo_of_transfer (u := s.link) rfl

/-- Settles O29: each is a branch on the decision of its condition. -/
theorem registerBranches : Obligations.RegisterBranches := by
  intro s rs rt imm i taken hbranch t hyes hno
  have hgoes : GoesTo i s s t := by
    rcases hbranch with ⟨rfl, hc⟩ | ⟨rfl, hc⟩ | ⟨rfl, hc⟩ | ⟨rfl, hc⟩ | ⟨rfl, hc⟩ | ⟨rfl, hc⟩ <;>
      exact goesTo_of_branch rfl rfl (hc.trans decide_eq_true_iff.symm) hyes hno
  obtain ⟨hnext, hzero⟩ := hgoes
  exact ⟨hnext, hzero, rfl, rfl, rfl, rfl, rfl, rfl⟩

/-- Settles O30: both are a branch on what cc holds, once it is written. -/
theorem conditionBranches : Obligations.ConditionBranches := by
  rintro s imm b i (⟨rfl, rfl⟩ | ⟨rfl, rfl⟩)
  · exact ⟨fun hcc => raises_of_branch rfl (State.readCc_unwritten hcc), fun hcc _ =>
      goesTo_of_branch rfl (s.readCc_written hcc) Iff.rfl⟩
  · refine ⟨fun hcc => raises_of_branch rfl ?_, fun hcc _ =>
      goesTo_of_branch (b := !s.cc.val) rfl ?_ (by simp)⟩
    · rw [State.readCc_unwritten hcc]
      rfl
    · rw [s.readCc_written hcc]
      rfl

end Sys2Proof.Machine
end

section
/-! The compact family (42_compact.md): the halves that ldi and ldihi set, the table read of ijmp, and O31 to
O33. rcall stands with the calls. -/

namespace Sys2Proof.Machine

/-! ### The halves of a split load (R294, R295) -/

/-- A word is its upper 18 bits and its low 14 bits. -/
theorem upper_append_low (v : Word) : v.extractLsb' 14 18 ++ v.extractLsb' 0 14 = v :=
  append_eq_iff.2 ⟨rfl, rfl⟩

/-- The mask 0xFFFFC000 is 18 ones and 14 zeros, so each field is kept or replaced as a whole. -/
theorem setLow14_append (hi : BitVec 18) (old lo : BitVec 14) : setLow14 (hi ++ old) lo = hi ++ lo := by
  calc (hi ++ old) &&& (BitVec.allOnes 18 ++ 0#14) ||| lo.setWidth 32
    _ = (hi ++ 0#14) ||| (0#18 ++ lo) := by
      rw [BitVec.and_append, BitVec.and_allOnes, BitVec.and_zero]
      exact congrArg _ (BitVec.setWidth_eq_append (by decide))
    _ = hi ++ lo := by rw [BitVec.or_append, BitVec.or_zero, BitVec.zero_or]

/-- The same for the mask 0x00003FFF, 18 zeros and 14 ones. -/
theorem setHigh18_append (old hi : BitVec 18) (lo : BitVec 14) : setHigh18 (old ++ lo) hi = hi ++ lo := by
  calc (hi.setWidth 32 <<< 14) ||| ((old ++ lo) &&& (0#18 ++ BitVec.allOnes 14))
    _ = (hi.setWidth 32 <<< 14) ||| lo.setWidth 32 := by
      rw [BitVec.and_append, BitVec.and_allOnes, BitVec.and_zero]
      exact congrArg _ (BitVec.setWidth_eq_append (by decide)).symm
    _ = hi ++ lo := by
      rw [← BitVec.setWidth_append_eq_shiftLeft_setWidth_or]
      exact BitVec.setWidth_eq _

theorem setLow14_eq (old : Word) (lo : BitVec 14) : setLow14 old lo = old.extractLsb' 14 18 ++ lo := by
  rw [← setLow14_append _ (old.extractLsb' 0 14), upper_append_low]

theorem setHigh18_eq (old : Word) (hi : BitVec 18) : setHigh18 old hi = hi ++ old.extractLsb' 0 14 := by
  rw [← setHigh18_append (old.extractLsb' 14 18), upper_append_low]

/-! ### The split load (R294 to R296) -/

theorem Marked.eq_wrote {α : Type} {m : Marked α} (h : m.written = true) : m = .wrote m.val := by
  cases m
  cases h
  rfl

section

variable {s t : State} {rt : Gpr} {lo : BitVec 14} {hi : BitVec 18}

/-- An instruction past its checks that leaves the machine running has done its writes. -/
theorem eq_of_complete_running {i : Instr} {u : State} (h : complete i s (.ok u) = .next t)
    (hrun : t.status = .running) : t = { u with pc := s.pc + 4#32 } := by
  obtain ⟨tr, rfl⟩ | ⟨_, ⟨⟩, -, ht⟩ := complete_next h
  · cases hrun
  · exact ht

theorem exec_ldi :
    exec (.ldi rt lo) s = complete (.ldi rt lo) s
      (.ok { s.writeGpr rt (s.gpr[rt].extractLsb' 14 18 ++ lo) with ldireg := .wrote rt }) := by
  rw [← setLow14_eq]
  rfl

/-- ldihi once ldireg is written: one write, to the register it names. -/
theorem exec_ldihi (h : s.ldireg = .wrote rt) :
    exec (.ldihi hi) s =
      complete (.ldihi hi) s (.ok (s.writeGpr rt (hi ++ s.gpr[rt].extractLsb' 0 14))) := by
  have hread : s.readLdireg = .ok rt := by rw [State.readLdireg, h]; rfl
  simp only [exec, execLdihi, hread, Attempt.ok_bind, setHigh18_eq]
  rfl

theorem ldi_running (h : exec (.ldi rt lo) s = .next t) (hrun : t.status = .running) :
    t.ldireg = .wrote rt ∧ t.gpr[rt] = s.gpr[rt].extractLsb' 14 18 ++ lo := by
  rw [eq_of_complete_running (exec_ldi.symm.trans h) hrun]
  exact ⟨rfl, Vector.getElem_set_self _⟩

theorem ldihi_running (hld : s.ldireg = .wrote rt) (h : exec (.ldihi hi) s = .next t)
    (hrun : t.status = .running) :
    t.ldireg = .wrote rt ∧ t.gpr[rt] = hi ++ s.gpr[rt].extractLsb' 0 14 := by
  rw [eq_of_complete_running ((exec_ldihi hld).symm.trans h) hrun]
  exact ⟨hld, Vector.getElem_set_self _⟩

end

/-- Settles O33: ldi leaves the low bits of v in the register that ldireg names, and ldihi keeps them. -/
theorem splitLoadPair : Obligations.SplitLoadPair := by
  intro s t u w rt v hldi ht hpending htarget hldihi hw
  obtain ⟨hld, hlow⟩ := ldi_running hldi ht
  obtain ⟨hname, hvalue⟩ := ldihi_running (hpending.trans hld) hldihi hw
  refine ⟨?_, congrArg Marked.val hname⟩
  rw [hvalue, htarget, hlow, BitVec.extractLsb'_append_eq_right, upper_append_low]

/-- Settles O31: each writes its pending register or its half and nothing else, and pc advances. -/
theorem pendingRegisters : Obligations.PendingRegisters := fun s _ _ _ _ h =>
  ⟨complete_ok _ s _ h, exec_ldi.trans (complete_ok _ s _ h), fun hld =>
    (exec_ldihi (Marked.eq_wrote hld)).trans (complete_ok _ s _ h)⟩

/-! ### The table read (R293) -/

section

variable {s : State} {a : Word}

theorem State.loadWord_ok_of_admits (h : s.Admits a 4) : s.loadWord a = .ok (s.wordOf a) :=
  s.loadWord_ok a ((s.admitsRun_iff a 4).2 h)

theorem State.loadWord_stuck (h : ¬ s.Admits a 4) : s.loadWord a = .error (.stuck a) := by
  rw [State.loadWord, State.checkAdmitted, if_neg (mt (s.admitsRun_iff a 4).1 h)]
  rfl

theorem raises_of_ijmpreg_unwritten {rs : Gpr} {imm : BitVec 12} (h : s.ijmpreg.written = false) :
    Raises (.ijmp rs imm) s (.unwrittenState .ijmpreg) := by
  simp only [Raises, exec, execIjmp, State.readIjmpreg, Marked.read_unwritten _ _ h]
  rfl

/-- ijmp once ijmpreg is written: the checks and the read of its table entry, and no write. -/
theorem exec_ijmp {rs : Gpr} {imm : BitVec 12} (h : s.ijmpreg.written = true)
    (ha : a = tableEntry s.ijmpreg.val imm s.gpr[rs]) :
    exec (.ijmp rs imm) s =
      transfer (.ijmp rs imm) s (checkAligned a 4 >>= fun _ => s.loadWord a >>= fun t => pure (s, t)) := by
  subst ha
  simp only [exec, execIjmp, State.readIjmpreg, Marked.read_written _ _ h, Attempt.ok_bind]
  rfl

end

/-- Settles O32: the checks are taken in their order, each once those before it pass. -/
theorem tableJump : Obligations.TableJump := by
  intro s rs imm a
  refine ⟨raises_of_ijmpreg_unwritten, fun hij ha => ?_, fun hij ha hadm => ?_, fun hij ha hadm => ?_⟩
  · rw [Raises, exec_ijmp (a := a) hij rfl, checkAligned_error a 4 ha]
    rfl
  · rw [exec_ijmp (a := a) hij rfl, checkAligned_ok a 4 ha, Attempt.ok_bind, State.loadWord_stuck hadm]
    rfl
  · refine And.symm (goesTo_of_transfer ?_)
    rw [exec_ijmp (a := a) hij rfl, checkAligned_ok a 4 ha, Attempt.ok_bind,
      State.loadWord_ok_of_admits hadm]
    rfl

end Sys2Proof.Machine
end

section
/-! The traps of the block itself (43_trap_system.md): teq and break, and O34. -/

namespace Sys2Proof.Machine

section

variable {s : State} {rs rt : Gpr} {code : BitVec 10}

theorem raises_trapEqual (heq : s.gpr[rs] = s.gpr[rt]) : Raises (.teq rs rt code) s .trapEqual :=
  raises_of_error rfl (if_pos heq)

/-- teq past its check writes nothing. -/
theorem exec_teq_of_ne (hne : s.gpr[rs] ≠ s.gpr[rt]) :
    exec (.teq rs rt code) s = complete (.teq rs rt code) s (.ok s) :=
  congrArg (complete _ s) (if_neg hne)

end

theorem raises_break (s : State) (code : BitVec 20) : Raises (.brk code) s .break := rfl

/-- Settles O34: the comparison of teq decides its case, break has no other, and each word is its format. -/
theorem trapAndBreak : Obligations.TrapAndBreak := fun s _ _ _ _ =>
  ⟨raises_trapEqual, fun hne h => (exec_teq_of_ne hne).trans (complete_ok _ s s h),
    raises_break s _, rfl, rfl, rfl, rfl⟩

end Sys2Proof.Machine
end

section
/-! Rounding (44_fp_arith.md R331): how the values of the patterns lie, what it is to be the nearest whole
number of steps, and O41. -/

namespace Sys2Proof.Machine

/-! ### The values of the patterns (R330, R333) -/

theorem Fmt.magOf_subnormal (f : Fmt) {j : ℕ} (hj : j < 2 ^ f.fracBits) : f.magOf j = j := by
  simp only [Fmt.magOf, Nat.div_eq_of_lt hj, Nat.mod_eq_of_lt hj, if_true]

theorem Fmt.magOf_normal (f : Fmt) (e : ℕ) {j : ℕ} (hj : j < 2 ^ f.fracBits) :
    f.magOf ((e + 1) * 2 ^ f.fracBits + j) = (2 ^ f.fracBits + j) * 2 ^ e := by
  have hdiv : ((e + 1) * 2 ^ f.fracBits + j) / 2 ^ f.fracBits = e + 1 := by
    rw [Nat.add_comm, Nat.add_mul_div_right _ _ (Nat.two_pow_pos _), Nat.div_eq_of_lt hj, zero_add]
  have hmod : ((e + 1) * 2 ^ f.fracBits + j) % 2 ^ f.fracBits = j := by
    rw [Nat.mul_add_mod_self_right, Nat.mod_eq_of_lt hj]
  simp only [Fmt.magOf, hdiv, hmod, Nat.succ_ne_zero, if_false, Nat.add_sub_cancel]

/-- A stretch of patterns 2^s units apart: from 0 for s = 0, from 2^(fracBits+s) units for s > 0, up to
2^(fracBits+1+s) units. -/
theorem Fmt.magOf_steps (f : Fmt) {s r : ℕ} (hlow : s = 0 ∨ 2 ^ f.fracBits ≤ r)
    (hhigh : r ≤ 2 * 2 ^ f.fracBits) : f.magOf (s * 2 ^ f.fracBits + r) = r * 2 ^ s := by
  by_cases hsub : r < 2 ^ f.fracBits
  · obtain rfl : s = 0 := hlow.resolve_right (Nat.not_le.2 hsub)
    simp [f.magOf_subnormal hsub]
  · obtain ⟨j, rfl⟩ := Nat.exists_eq_add_of_le (Nat.not_lt.1 hsub)
    obtain hj | rfl : j < 2 ^ f.fracBits ∨ j = 2 ^ f.fracBits := by omega
    · rw [← f.magOf_normal s hj]
      congr 1
      ring
    · have h := f.magOf_normal (s + 1) (Nat.two_pow_pos f.fracBits)
      calc f.magOf (s * 2 ^ f.fracBits + (2 ^ f.fracBits + 2 ^ f.fracBits))
        _ = f.magOf ((s + 1 + 1) * 2 ^ f.fracBits + 0) := by congr 1; ring
        _ = (2 ^ f.fracBits + 2 ^ f.fracBits) * 2 ^ s := by rw [h]; ring

/-- Every pattern lies in such a stretch, and before its end. -/
theorem Fmt.exists_steps (f : Fmt) (p : ℕ) : ∃ s r, p = s * 2 ^ f.fracBits + r ∧
    (s = 0 ∨ 2 ^ f.fracBits ≤ r) ∧ r < 2 * 2 ^ f.fracBits := by
  have hdecomp := Nat.div_add_mod' p (2 ^ f.fracBits)
  have hmod := Nat.mod_lt p (Nat.two_pow_pos f.fracBits)
  cases he : p / 2 ^ f.fracBits with
  | zero => exact ⟨0, p, by simp, .inl rfl, by rw [he] at hdecomp; omega⟩
  | succ s =>
    rw [he, Nat.succ_mul] at hdecomp
    exact ⟨s, 2 ^ f.fracBits + p % 2 ^ f.fracBits, by omega, .inr (by omega), by omega⟩

theorem Fmt.magOf_strictMono (f : Fmt) : StrictMono f.magOf := by
  refine strictMono_nat_of_lt_succ fun p => ?_
  obtain ⟨s, r, rfl, hlow, hhigh⟩ := f.exists_steps p
  rw [add_assoc, f.magOf_steps hlow hhigh.le, f.magOf_steps (hlow.imp_right (by omega)) hhigh]
  exact Nat.mul_lt_mul_of_pos_right r.lt_succ_self (Nat.two_pow_pos s)

/-- The pattern after one of a stretch is at least one step away; after the last of them it is two. -/
theorem Fmt.le_magOf_succ (f : Fmt) {s r : ℕ} (hlow : s = 0 ∨ 2 ^ f.fracBits ≤ r)
    (hhigh : r ≤ 2 * 2 ^ f.fracBits) : (r + 1) * 2 ^ s ≤ f.magOf (s * 2 ^ f.fracBits + r + 1) := by
  obtain hlt | rfl := Nat.lt_or_eq_of_le hhigh
  · exact (f.magOf_steps (hlow.imp_right (by omega)) hlt).ge
  · have hP := Nat.one_le_two_pow (n := f.fracBits)
    calc (2 * 2 ^ f.fracBits + 1) * 2 ^ s
      _ ≤ (2 * 2 ^ f.fracBits + 2) * 2 ^ s := by gcongr; omega
      _ = (2 ^ f.fracBits + 1) * 2 ^ (s + 1) := by ring
      _ = f.magOf ((s + 1) * 2 ^ f.fracBits + (2 ^ f.fracBits + 1)) :=
        (f.magOf_steps (.inr (by omega)) (by omega)).symm
      _ = f.magOf (s * 2 ^ f.fracBits + 2 * 2 ^ f.fracBits + 1) := by congr 1; ring

/-! ### The nearest number of steps -/

/-- The value `y`, in units, lies where the patterns are 2^s units apart, and `n` steps is the nearest
multiple of 2^s to it, the even one of two. -/
structure Fmt.StepRounded (f : Fmt) (y : ℝ) (s n : ℕ) : Prop where
  lt_high  : y < 2 * 2 ^ f.fracBits * 2 ^ s
  low_le   : s = 0 ∨ 2 ^ f.fracBits * 2 ^ s ≤ y
  below    : (2 * n - 1) * 2 ^ s ≤ 2 * y
  above    : 2 * y ≤ (2 * n + 1) * 2 ^ s
  tie_even : (2 * n - 1) * 2 ^ s = 2 * y ∨ 2 * y = (2 * n + 1) * 2 ^ s → n % 2 = 0

namespace Fmt.StepRounded

variable {f : Fmt} {y : ℝ} {s n : ℕ}

theorem steps_le (h : f.StepRounded y s n) : n ≤ 2 * 2 ^ f.fracBits := by
  have hlt : ((2 * n : ℕ) : ℝ) < (4 * 2 ^ f.fracBits + 1 : ℕ) := by
    push_cast
    nlinarith [h.lt_high, h.below, pow_pos (two_pos (α := ℝ)) s]
  have := Nat.cast_lt.1 hlt
  omega

theorem le_steps (h : f.StepRounded y s n) (hs : 2 ^ f.fracBits * 2 ^ s ≤ y) : 2 ^ f.fracBits ≤ n := by
  have hle : ((2 * 2 ^ f.fracBits : ℕ) : ℝ) ≤ (2 * n + 1 : ℕ) := by
    push_cast
    nlinarith [h.above, pow_pos (two_pos (α := ℝ)) s]
  have := Nat.cast_le.1 hle
  omega

theorem low_steps (h : f.StepRounded y s n) : s = 0 ∨ 2 ^ f.fracBits ≤ n := h.low_le.imp_right h.le_steps

theorem magOf_eq (h : f.StepRounded y s n) : (f.magOf (s * 2 ^ f.fracBits + n) : ℝ) = n * 2 ^ s := by
  exact_mod_cast f.magOf_steps h.low_steps h.steps_le

theorem abs_sub_le_half (h : f.StepRounded y s n) : |n * 2 ^ s - y| ≤ 2 ^ s / 2 :=
  abs_le.2 ⟨by linarith [h.above], by linarith [h.below]⟩

/-- A pattern above is half a step away or more, and half a step at a tie alone. -/
theorem closer_than_above (h : f.StepRounded y s n) {g : ℝ} (hg : (n + 1) * 2 ^ s ≤ g) :
    |n * 2 ^ s - y| ≤ |g - y| ∧ (|g - y| = |n * 2 ^ s - y| → n % 2 = 0) := by
  have hfar : 2 ^ s / 2 ≤ g - y := by linarith [h.above]
  rw [abs_of_nonneg (a := g - y) ((by positivity : (0 : ℝ) ≤ 2 ^ s / 2).trans hfar)]
  exact ⟨h.abs_sub_le_half.trans hfar,
    fun heq => h.tie_even (.inr (by linarith [h.above, h.abs_sub_le_half]))⟩

/-- So is a pattern below. -/
theorem closer_than_below (h : f.StepRounded y s n) {g : ℝ} (hg : g ≤ (n - 1) * 2 ^ s) :
    |n * 2 ^ s - y| ≤ |g - y| ∧ (|g - y| = |n * 2 ^ s - y| → n % 2 = 0) := by
  have hfar : 2 ^ s / 2 ≤ y - g := by linarith [h.below]
  rw [abs_sub_comm g y, abs_of_nonneg (a := y - g) ((by positivity : (0 : ℝ) ≤ 2 ^ s / 2).trans hfar)]
  exact ⟨h.abs_sub_le_half.trans hfar,
    fun heq => h.tie_even (.inl (by linarith [h.below, h.abs_sub_le_half]))⟩

/-- The patterns below the rounded one are a step or more below it, where the value was rounded up. -/
theorem magOf_le_of_lt (h : f.StepRounded y s n) (hup : y < n * 2 ^ s) {q : ℕ}
    (hq : q < s * 2 ^ f.fracBits + n) : (f.magOf q : ℝ) ≤ (n - 1) * 2 ^ s := by
  have hlow : s = 0 ∨ 2 ^ f.fracBits < n := h.low_le.imp_right fun hle => by
    exact_mod_cast lt_of_mul_lt_mul_right (hle.trans_lt hup) (by positivity)
  obtain ⟨m, rfl⟩ : ∃ m, n = m + 1 := Nat.exists_eq_succ_of_ne_zero (by rintro rfl; simp_all)
  have hsteps := f.magOf_steps (s := s) (r := m) (by omega) (Nat.le_of_lt h.steps_le)
  have hmono : f.magOf q ≤ f.magOf (s * 2 ^ f.fracBits + m) :=
    f.magOf_strictMono.monotone (Nat.le_of_lt_succ hq)
  rw [hsteps] at hmono
  push_cast
  rw [add_sub_cancel_right]
  exact_mod_cast hmono

/-- Of all patterns, without a largest one, the rounded one is the nearest. -/
theorem closest (h : f.StepRounded y s n) (q : ℕ) :
    |n * 2 ^ s - y| ≤ |f.magOf q - y| ∧
      (q ≠ s * 2 ^ f.fracBits + n → |f.magOf q - y| = |n * 2 ^ s - y| → n % 2 = 0) := by
  obtain hq | rfl | hq := lt_trichotomy q (s * 2 ^ f.fracBits + n)
  · have hlt : (f.magOf q : ℝ) < n * 2 ^ s := by
      rw [← h.magOf_eq]
      exact_mod_cast f.magOf_strictMono hq
    obtain hup | hdown := lt_or_ge y (n * 2 ^ s)
    · exact (h.closer_than_below (h.magOf_le_of_lt hup hq)).imp_right fun htie _ => htie
    · have hcloser : |n * 2 ^ s - y| < |f.magOf q - y| := by
        rw [abs_of_nonpos (by linarith), abs_of_neg (by linarith)]
        linarith
      exact ⟨hcloser.le, fun _ heq => absurd heq hcloser.ne'⟩
  · exact ⟨by rw [h.magOf_eq], fun hne => absurd rfl hne⟩
  · refine (h.closer_than_above ?_).imp_right fun htie _ => htie
    have hsucc := f.le_magOf_succ h.low_steps h.steps_le
    exact_mod_cast hsucc.trans (f.magOf_strictMono.monotone hq)

end Fmt.StepRounded

/-- Nearness is the same in units. -/
theorem Fmt.nearest_div_iff (f : Fmt) (y : ℝ) (p : ℕ) : f.Nearest (y / 2 ^ f.unitLog) p ↔
    p ≤ f.infMag ∧ ∀ q ≤ f.infMag, |f.magOf p - y| ≤ |f.magOf q - y| ∧
      (q ≠ p → |f.magOf q - y| = |f.magOf p - y| → p % 2 = 0) := by
  have hunit : (0 : ℝ) < 2 ^ f.unitLog := by positivity
  have hdist (q : ℕ) : |(f.grid q : ℝ) - y / 2 ^ f.unitLog| = |f.magOf q - y| / 2 ^ f.unitLog := by
    rw [Fmt.grid, Rat.cast_div, ← abs_of_pos hunit, ← abs_div, abs_of_pos hunit, sub_div]
    push_cast
    rfl
  simp only [Fmt.Nearest, hdist, div_le_div_iff_of_pos_right hunit, div_left_inj' hunit.ne']

/-- A value rounded to steps is rounded to a pattern: the steps' pattern, or infinity past the largest. -/
theorem Fmt.StepRounded.nearest {f : Fmt} {y : ℝ} {s n : ℕ} (hf : 0 < f.fracBits)
    (h : f.StepRounded y s n) :
    f.Nearest (y / 2 ^ f.unitLog) (min (s * 2 ^ f.fracBits + n) f.infMag) := by
  refine (f.nearest_div_iff _ _).2 ⟨min_le_right _ _, fun q hq => ?_⟩
  obtain hp | hp := le_or_gt (s * 2 ^ f.fracBits + n) f.infMag
  · rw [min_eq_left hp, h.magOf_eq]
    refine (h.closest q).imp_right fun htie hne heq => ?_
    have heven : 2 ^ f.fracBits % 2 = 0 := Nat.mod_eq_zero_of_dvd (dvd_pow_self 2 hf.ne')
    rw [Nat.add_mod, Nat.mul_mod, heven, Nat.mul_zero, htie hne heq]
  · rw [min_eq_right hp.le]
    obtain hlt | rfl := Nat.lt_or_eq_of_le hq
    · have hq' : (f.magOf q : ℝ) < f.magOf f.infMag := by exact_mod_cast f.magOf_strictMono hlt
      have hp' : (f.magOf f.infMag : ℝ) < n * 2 ^ s := by
        rw [← h.magOf_eq]
        exact_mod_cast f.magOf_strictMono hp
      have hbeyond : f.magOf f.infMag < y := by
        by_contra! hle
        have hclosest := (h.closest f.infMag).1
        rw [abs_of_pos (by linarith), abs_of_nonneg (by linarith)] at hclosest
        linarith
      have hcloser : |(f.magOf f.infMag : ℝ) - y| < |f.magOf q - y| := by
        rw [abs_of_neg (by linarith), abs_of_neg (by linarith)]
        linarith
      exact ⟨hcloser.le, fun _ heq => absurd heq hcloser.ne'⟩
    · exact ⟨le_rfl, fun hne => absurd rfl hne⟩

/-! ### The model's rounding (R331) -/

/-- The model's integer rounding: within half of `den`, and even at a tie. -/
theorem roundTiesEven_spec (num : ℕ) {den : ℕ} (hden : 0 < den) :
    2 * roundTiesEven num den * den ≤ 2 * num + den ∧ 2 * num ≤ (2 * roundTiesEven num den + 1) * den ∧
      (2 * roundTiesEven num den * den = 2 * num + den ∨ 2 * num = (2 * roundTiesEven num den + 1) * den →
        roundTiesEven num den % 2 = 0) := by
  have hdecomp := Nat.div_add_mod' num den
  have hmod := Nat.mod_lt num hden
  simp only [roundTiesEven]
  generalize num / den = q at *
  generalize num % den = r at *
  subst hdecomp
  split_ifs with hup
  · have heq : 2 * (q + 1) * den = 2 * (q * den) + 2 * den := by ring
    have heq' : (2 * (q + 1) + 1) * den = 2 * (q * den) + 3 * den := by ring
    omega
  · have heq : 2 * q * den = 2 * (q * den) := by ring
    have heq' : (2 * q + 1) * den = 2 * (q * den) + den := by ring
    omega

theorem Fmt.round_stepRounded (f : Fmt) (num : ℕ) {den : ℕ} (hden : 0 < den) :
    f.StepRounded ((num : ℝ) / den) (Nat.log2 (num / den) - f.fracBits)
      (roundTiesEven num (den * 2 ^ (Nat.log2 (num / den) - f.fracBits))) := by
  set s := Nat.log2 (num / den) - f.fracBits with hs
  obtain ⟨hbelow, habove, htie⟩ := roundTiesEven_spec num (den := den * 2 ^ s) (by positivity)
  generalize roundTiesEven num (den * 2 ^ s) = n at *
  have hden' : (0 : ℝ) < den := by exact_mod_cast hden
  refine ⟨?_, ?_, ?_, ?_, fun heq => htie ?_⟩
  · have hlt : num / den < 2 * 2 ^ f.fracBits * 2 ^ s := by
      calc num / den
        _ < 2 ^ (Nat.log2 (num / den) + 1) := Nat.lt_log2_self
        _ ≤ 2 ^ (1 + f.fracBits + s) := Nat.pow_le_pow_right two_pos (by omega)
        _ = 2 * 2 ^ f.fracBits * 2 ^ s := by ring
    rw [div_lt_iff₀ hden']
    exact_mod_cast (Nat.div_lt_iff_lt_mul hden).1 hlt
  · refine or_iff_not_imp_left.2 fun hs0 => ?_
    have hle : 2 ^ f.fracBits * 2 ^ s ≤ num / den := by
      rw [← pow_add, show f.fracBits + s = Nat.log2 (num / den) by omega]
      exact Nat.log2_self_le fun h0 => hs0 (by rw [hs, h0]; simp)
    rw [le_div_iff₀ hden']
    exact_mod_cast (Nat.le_div_iff_mul_le hden).1 hle
  · rw [← mul_div_assoc, le_div_iff₀ hden']
    have : (2 * n * (den * 2 ^ s) : ℝ) ≤ 2 * num + den * 2 ^ s := by exact_mod_cast hbelow
    linarith
  · rw [← mul_div_assoc, div_le_iff₀ hden']
    have : (2 * num : ℝ) ≤ (2 * n + 1) * (den * 2 ^ s) := by exact_mod_cast habove
    linarith
  · rw [← mul_div_assoc, eq_div_iff hden'.ne', div_eq_iff hden'.ne'] at heq
    refine heq.imp (fun heq => ?_) fun heq => ?_
    · have : (2 * n * (den * 2 ^ s) : ℝ) = 2 * num + den * 2 ^ s := by linarith
      exact_mod_cast this
    · have : (2 * num : ℝ) = (2 * n + 1) * (den * 2 ^ s) := by linarith
      exact_mod_cast this

theorem Fmt.round_nearest {f : Fmt} (hf : 0 < f.fracBits) (num : ℕ) {den : ℕ} (hden : 0 < den) :
    f.Nearest ((num : ℝ) / den / 2 ^ f.unitLog) (f.round num den) :=
  (f.round_stepRounded num hden).nearest hf

/-- Settles O41: the model's rounding is the nearest number of steps, and of those the nearest pattern. -/
theorem roundingIsNearestEven : Obligations.RoundingIsNearestEven := by
  rintro f num den (rfl | rfl) hden
  all_goals exact Fmt.round_nearest (by decide) num hden

end Sys2Proof.Machine
end

section
/-! Sums, products and quotients rounded once (44_fp_arith.md R336 to R343, R352 to R355): the exact value
of each in units, and O42. -/

namespace Sys2Proof.Machine

/-! ### Signed numbers of units -/

theorem signed_not (n : Bool) (m : ℕ) : signed (!n) m = -signed n m := by
  cases n <;> simp [signed]

theorem signed_mul (n n' : Bool) (m m' : ℕ) : signed n m * signed n' m' = signed (n != n') (m * m') := by
  cases n <;> cases n' <;> simp [signed]

theorem signed_natAbs (z : ℤ) : signed (decide (z < 0)) z.natAbs = z := by
  rcases lt_or_ge z 0 with h | h
  · rw [decide_eq_true h, signed, if_pos rfl, Int.ofNat_natAbs_of_nonpos h.le, neg_neg]
  · rw [decide_eq_false h.not_gt, signed, if_neg Bool.false_ne_true, Int.natAbs_of_nonneg h]

/-- A signed number of units keeps its sign and its size as a real number. -/
theorem signed_div_cases (n : Bool) (m : ℕ) (d : ℚ) :
    (signed n m : ℚ) / d = if n then -(m / d) else m / d := by
  cases n <;> simp [signed, neg_div]

section

variable {f : Fmt}

theorem Fmt.rat_fin (n : Bool) (m : ℕ) : f.rat (.fin n m) = signed n m / 2 ^ f.unitLog := rfl

protected theorem Fmt.cast_one : ((f.one : ℕ) : ℚ) = 2 ^ f.unitLog := by simp [Fmt.one]

protected theorem Fmt.one_pos : 0 < f.one := Nat.two_pow_pos _

theorem Fmt.rat_negate (a : FpVal) : f.rat a.negate = -f.rat a := by
  cases a with
  | nan => simp [Fmt.rat, FpVal.negate]
  | inf n => simp [Fmt.rat, FpVal.negate]
  | fin n m => rw [FpVal.negate, f.rat_fin, f.rat_fin, signed_not, Int.cast_neg, neg_div]

/-! ### One rounding with a sign (R331) -/

/-- The nearest pattern to a positive number, under a sign, is the rounding of that number under it. -/
theorem Fmt.roundsTo_of_nearest {x : ℝ} {p : ℕ} (h : f.Nearest x p) (hx : 0 < x) (n : Bool) :
    f.RoundsTo (if n then -x else x) (f.pattern n p) := by
  cases n with
  | false =>
    exact ⟨p, by rwa [if_neg Bool.false_ne_true, abs_of_pos hx], fun hneg => absurd hneg hx.not_gt,
      fun _ => rfl⟩
  | true =>
    exact ⟨p, by rwa [if_pos rfl, abs_neg, abs_of_pos hx], fun _ => rfl,
      fun hpos => absurd (neg_nonneg.1 hpos) hx.not_ge⟩

theorem Fmt.roundsTo_round (hf : 0 < f.fracBits) {x : ℚ} {n : Bool} {num den : ℕ} (hden : 0 < den)
    (hnum : num ≠ 0) (hx : x = signed n num / (den * 2 ^ f.unitLog)) :
    f.RoundsTo x (f.pattern n (f.round num den)) := by
  have hpos : (0 : ℝ) < num / den / 2 ^ f.unitLog := by positivity
  have h := Fmt.roundsTo_of_nearest (f.round_nearest hf num hden) hpos n
  rw [hx, signed_div_cases]
  cases n <;> simpa [div_div] using h

theorem Fmt.roundsTo_roundSum (hf : 0 < f.fracBits) {x : ℚ} {z : ℤ} {den : ℕ} (hden : 0 < den)
    (hx : x = z / (den * 2 ^ f.unitLog)) (hne : x ≠ 0) (b : Bool) :
    f.RoundsTo x (f.roundSum z den b) := by
  have hz : z ≠ 0 := by
    rintro rfl
    simp [hx] at hne
  rw [Fmt.roundSum, if_neg hz]
  exact Fmt.roundsTo_round hf hden (Int.natAbs_ne_zero.2 hz) (by rw [signed_natAbs, hx])

/-! ### The exact values in units -/

variable (n n' n'' : Bool) (m m' m'' : ℕ)

theorem Fmt.rat_add : f.rat (.fin n m) + f.rat (.fin n' m') =
    (signed n m + signed n' m' : ℤ) / ((1 : ℕ) * 2 ^ f.unitLog) := by
  rw [f.rat_fin, f.rat_fin, ← add_div, Nat.cast_one, one_mul, Int.cast_add]

theorem Fmt.rat_mul : f.rat (.fin n m) * f.rat (.fin n' m') =
    signed (n != n') (m * m') / (f.one * 2 ^ f.unitLog) := by
  rw [f.rat_fin, f.rat_fin, div_mul_div_comm, ← signed_mul, Int.cast_mul, f.cast_one]

theorem Fmt.rat_fma : f.rat (.fin n m) * f.rat (.fin n' m') + f.rat (.fin n'' m'') =
    (signed (n != n') (m * m') + signed n'' (m'' * f.one) : ℤ) / (f.one * 2 ^ f.unitLog) := by
  have hone : (signed n'' (m'' * f.one) : ℚ) = signed n'' m'' * 2 ^ f.unitLog := by
    cases n'' <;> simp [signed, f.cast_one]
  rw [f.rat_mul, f.rat_fin, f.cast_one, Int.cast_add, hone, add_div, mul_div_mul_right _ _ (by positivity)]

theorem Fmt.rat_div : f.rat (.fin n m) / f.rat (.fin n' m') =
    signed (n != n') (m * f.one) / (m' * 2 ^ f.unitLog) := by
  have hone : (2 : ℚ) ^ f.unitLog ≠ 0 := by positivity
  rw [f.rat_fin, f.rat_fin, div_div_div_cancel_right₀ hone]
  cases n <;> cases n' <;> simp [signed, f.cast_one, mul_div_mul_right, hone, neg_div, div_neg]

/-! ### Sums, products and quotients -/

section

variable {n n' n'' m m' m''} (hf : 0 < f.fracBits)
include hf

theorem Fmt.add_roundsTo (h : f.rat (.fin n m) + f.rat (.fin n' m') ≠ 0) :
    ∃ r, f.add (.fin n m) (.fin n' m') = some r ∧
      f.RoundsTo (f.rat (.fin n m) + f.rat (.fin n' m') : ℚ) r :=
  ⟨_, rfl, Fmt.roundsTo_roundSum hf Nat.one_pos (f.rat_add ..) h _⟩

theorem Fmt.sub_roundsTo (h : f.rat (.fin n m) - f.rat (.fin n' m') ≠ 0) :
    ∃ r, f.sub (.fin n m) (.fin n' m') = some r ∧
      f.RoundsTo (f.rat (.fin n m) - f.rat (.fin n' m') : ℚ) r := by
  rw [sub_eq_add_neg, ← f.rat_negate] at h ⊢
  exact f.add_roundsTo hf h

theorem Fmt.mul_roundsTo (h : f.rat (.fin n m) * f.rat (.fin n' m') ≠ 0) :
    ∃ r, f.mul (.fin n m) (.fin n' m') = some r ∧
      f.RoundsTo (f.rat (.fin n m) * f.rat (.fin n' m') : ℚ) r := by
  refine ⟨_, rfl, Fmt.roundsTo_round hf f.one_pos ?_ (f.rat_mul ..)⟩
  intro h0
  rw [f.rat_mul, h0] at h
  simp [signed] at h

theorem Fmt.fma_roundsTo (h : f.rat (.fin n m) * f.rat (.fin n' m') + f.rat (.fin n'' m'') ≠ 0) :
    ∃ r, f.fma (.fin n m) (.fin n' m') (.fin n'' m'') = some r ∧
      f.RoundsTo (f.rat (.fin n m) * f.rat (.fin n' m') + f.rat (.fin n'' m'') : ℚ) r :=
  ⟨_, rfl, Fmt.roundsTo_roundSum hf f.one_pos (f.rat_fma ..) h _⟩

theorem Fmt.div_roundsTo (hm : m ≠ 0) (hm' : m' ≠ 0) :
    ∃ r, f.div (.fin n m) (.fin n' m') = some r ∧
      f.RoundsTo (f.rat (.fin n m) / f.rat (.fin n' m') : ℚ) r :=
  ⟨_, if_neg hm', Fmt.roundsTo_round hf (Nat.pos_of_ne_zero hm') (Nat.mul_ne_zero hm f.one_pos.ne')
    (f.rat_div ..)⟩

end

end

/-- Settles O42: each operation rounds its exact value, a signed number of units or of fractions of one,
once. -/
theorem sumsAndProductsRounded : Obligations.SumsAndProductsRounded := by
  intro f n₁ n₂ n₃ m₁ m₂ m₃ hf
  have hpos : 0 < f.fracBits := by rcases hf with rfl | rfl <;> decide
  exact ⟨Fmt.add_roundsTo hpos, Fmt.sub_roundsTo hpos, Fmt.mul_roundsTo hpos, Fmt.fma_roundsTo hpos⟩

end Sys2Proof.Machine
end

section
/-! Square roots rounded once (44_fp_arith.md R344, R345): the model rounds the middle of a small cell in
place of a root that is not exact, and no boundary of the rounding lies within the cell. And O43. -/

namespace Sys2Proof.Machine

/-! ### The integer square root -/

theorem four_pow (n : ℕ) : 4 ^ n = 2 ^ (2 * n) := (pow_mul 2 2 n).symm

theorem cast_mul_two_pow_sq (a k : ℕ) : (a * 2 ^ k : ℝ) ^ 2 = (a * a * 4 ^ k : ℕ) := by
  rw [four_pow]
  push_cast
  ring

theorem sqrtStep_eq_sqrt (n : ℕ) : sqrtStep n (n / 4).sqrt = n.sqrt := by
  have hle := Nat.sqrt_le (n / 4)
  have hlt := Nat.lt_succ_sqrt (n / 4)
  set r := (n / 4).sqrt
  have hlow : 4 * (r * r) ≤ n := by omega
  have hhigh : n < 4 * ((r + 1) * (r + 1)) := by simp only [Nat.succ_eq_add_one] at hlt; omega
  refine Nat.eq_sqrt.2 ?_
  rw [sqrtStep]
  split_ifs with hodd
  · exact ⟨hodd, by linarith⟩
  · exact ⟨by linarith, by linarith⟩

/-- The model's bitwise root is the library's. -/
theorem intSqrt_eq_sqrt (fuel n : ℕ) (h : n < 4 ^ fuel) : intSqrt fuel n = n.sqrt := by
  induction fuel generalizing n with
  | zero => rw [Nat.lt_one_iff.1 h]; rfl
  | succ fuel ih =>
    rw [intSqrt, ih (n / 4) (by rw [Nat.div_lt_iff_lt_mul four_pos, ← pow_succ]; exact h),
      sqrtStep_eq_sqrt]

/-! ### The value rounded in place of a root -/

section

variable {y y' : ℝ} {s k a : ℕ} {c : ℤ} (hk : k < s)
include hk

/-- A half of a multiple of 2^s is a multiple of 2^k, so it lies below a cell between two neighbouring
multiples of 2^k as soon as it lies below a point of the cell. -/
theorem steps_lt_of_cell (hc : c * 2 ^ s ≤ 2 * y') (hy' : y' < (a + 1) * 2 ^ k) (hy : a * 2 ^ k < y) :
    c * 2 ^ s < 2 * y := by
  obtain ⟨j, rfl⟩ : ∃ j, s = k + 1 + j := Nat.exists_eq_add_of_le hk
  have hhalf : (c * 2 ^ (k + 1 + j) : ℝ) = 2 * ((c * 2 ^ j : ℤ) * 2 ^ k) := by push_cast; ring
  have hlt : ((c * 2 ^ j : ℤ) : ℝ) < (a + 1 : ℤ) :=
    lt_of_mul_lt_mul_right (a := (2 : ℝ) ^ k) (by push_cast at *; linarith) (by positivity)
  have hle : ((c * 2 ^ j : ℤ) : ℝ) ≤ a := by exact_mod_cast Int.lt_add_one_iff.1 (Int.cast_lt.1 hlt)
  have hcell := mul_le_mul_of_nonneg_right hle (by positivity : (0 : ℝ) ≤ 2 ^ k)
  linarith

/-- So does one above. -/
theorem lt_steps_of_cell (hc : 2 * y' ≤ c * 2 ^ s) (hy' : a * 2 ^ k < y') (hy : y < (a + 1) * 2 ^ k) :
    2 * y < c * 2 ^ s := by
  obtain ⟨j, rfl⟩ : ∃ j, s = k + 1 + j := Nat.exists_eq_add_of_le hk
  have hhalf : (c * 2 ^ (k + 1 + j) : ℝ) = 2 * ((c * 2 ^ j : ℤ) * 2 ^ k) := by push_cast; ring
  have hlt : ((a : ℤ) : ℝ) < (c * 2 ^ j : ℤ) :=
    lt_of_mul_lt_mul_right (a := (2 : ℝ) ^ k) (by push_cast at *; linarith) (by positivity)
  have hle : (a + 1 : ℝ) ≤ (c * 2 ^ j : ℤ) := by exact_mod_cast Int.add_one_le_iff.2 (Int.cast_lt.1 hlt)
  have hcell := mul_le_mul_of_nonneg_right hle (by positivity : (0 : ℝ) ≤ 2 ^ k)
  linarith

/-- Two values in one cell round alike: no boundary of the rounding lies within it. -/
theorem Fmt.StepRounded.of_same_cell {f : Fmt} {n : ℕ} (h : f.StepRounded y' s n)
    (hy' : y' ∈ Set.Ioo (a * 2 ^ k : ℝ) ((a + 1) * 2 ^ k))
    (hy : y ∈ Set.Ioo (a * 2 ^ k : ℝ) ((a + 1) * 2 ^ k)) : f.StepRounded y s n := by
  have hbelow := steps_lt_of_cell (c := 2 * n - 1) hk (by push_cast; exact h.below) hy'.2 hy.1
  have habove := lt_steps_of_cell (c := 2 * n + 1) hk (by push_cast; exact h.above) hy'.1 hy.2
  have hlow := h.low_le.resolve_left (by omega)
  have hle := steps_lt_of_cell (c := 2 * 2 ^ f.fracBits) hk (by push_cast; linarith) hy'.2 hy.1
  have hlt := lt_steps_of_cell (c := 2 * (2 * 2 ^ f.fracBits)) hk (by push_cast; linarith [h.lt_high])
    hy'.1 hy.2
  push_cast at hbelow habove hle hlt
  exact ⟨by linarith, .inr (by linarith), hbelow.le, habove.le, fun htie => by
    rcases htie with htie | htie <;> linarith⟩

end

/-! ### Square roots (R344, R345) -/

/-- How many pairs of low bits the model leaves out of the integer under the root. -/
def Fmt.rootShift (f : Fmt) (x : ℕ) : ℕ := Nat.log2 x / 2 - (f.fracBits + 2)

/-- The root of the rest, rounded down. -/
def Fmt.rootFloor (f : Fmt) (x : ℕ) : ℕ := (x / 4 ^ f.rootShift x).sqrt

/-- Twice the value the model rounds: the root when it is exact, and else the middle of its cell. -/
def Fmt.rootTwice (f : Fmt) (x : ℕ) : ℕ :=
  (if f.rootFloor x * f.rootFloor x * 4 ^ f.rootShift x = x then 2 * f.rootFloor x
    else 2 * f.rootFloor x + 1) * 2 ^ f.rootShift x

section

variable {f : Fmt} {x : ℕ} (hx : 4 ^ (f.fracBits + 2) ≤ x)
include hx

theorem Fmt.rootShift_add : f.rootShift x + (f.fracBits + 2) = Nat.log2 x / 2 := by
  refine Nat.sub_add_cancel ((Nat.le_div_iff_mul_le two_pos).2 ?_)
  rw [Nat.le_log2 ((Nat.pow_pos four_pos).trans_le hx).ne', mul_comm, pow_mul]
  exact hx

theorem Fmt.lt_pow_rootShift : x < 4 ^ (f.rootShift x + (f.fracBits + 3)) := by
  have hshift := Fmt.rootShift_add hx
  calc x
    _ < 2 ^ (Nat.log2 x + 1) := Nat.lt_log2_self
    _ ≤ 2 ^ (2 * (f.rootShift x + (f.fracBits + 3))) := Nat.pow_le_pow_right two_pos (by omega)
    _ = 4 ^ (f.rootShift x + (f.fracBits + 3)) := (four_pow _).symm

theorem Fmt.pow_rootShift_le : 4 ^ (f.fracBits + 2) * 4 ^ f.rootShift x ≤ x := by
  have hshift := Fmt.rootShift_add hx
  calc 4 ^ (f.fracBits + 2) * 4 ^ f.rootShift x
    _ = 2 ^ (2 * (f.rootShift x + (f.fracBits + 2))) := by rw [← four_pow, ← pow_add, add_comm]
    _ ≤ 2 ^ Nat.log2 x := Nat.pow_le_pow_right two_pos (by omega)
    _ ≤ x := Nat.log2_self_le ((Nat.pow_pos four_pos).trans_le hx).ne'

theorem Fmt.intSqrt_eq_rootFloor : intSqrt (f.fracBits + 5) (x / 4 ^ f.rootShift x) = f.rootFloor x := by
  refine intSqrt_eq_sqrt _ _ ?_
  rw [Nat.div_lt_iff_lt_mul (by positivity), ← pow_add]
  exact (Fmt.lt_pow_rootShift hx).trans_le (Nat.pow_le_pow_right four_pos (by omega))

theorem Fmt.le_rootFloor : 2 ^ (f.fracBits + 2) ≤ f.rootFloor x := by
  rw [Fmt.rootFloor, Nat.le_sqrt, ← Nat.mul_pow, Nat.le_div_iff_mul_le (by positivity)]
  exact Fmt.pow_rootShift_le hx

/-- The cell of the rounded middle is so small that the patterns there lie two cells apart or more. -/
theorem Fmt.rootShift_lt : f.rootShift x < Nat.log2 (f.rootTwice x / 2) - f.fracBits := by
  have hle : 2 ^ (f.fracBits + 2 + f.rootShift x) ≤ f.rootTwice x / 2 := by
    rw [Nat.le_div_iff_mul_le two_pos, Fmt.rootTwice, pow_add, mul_right_comm]
    refine Nat.mul_le_mul_right _ ?_
    have hroot := Fmt.le_rootFloor hx
    split_ifs <;> omega
  have hlog := (Nat.le_log2 ((Nat.two_pow_pos _).trans_le hle).ne').2 hle
  omega

end

section

variable {f : Fmt} {x : ℕ}

theorem Fmt.rootFloor_le (f : Fmt) (x : ℕ) : f.rootFloor x * 2 ^ f.rootShift x ≤ √(x : ℝ) := by
  have hle := (Nat.le_div_iff_mul_le (by positivity)).1 (Nat.sqrt_le (x / 4 ^ f.rootShift x))
  refine Real.le_sqrt_of_sq_le ?_
  rw [cast_mul_two_pow_sq]
  exact_mod_cast hle

theorem Fmt.lt_rootFloor (f : Fmt) (x : ℕ) : √(x : ℝ) < (f.rootFloor x + 1) * 2 ^ f.rootShift x := by
  have hlt := (Nat.div_lt_iff_lt_mul (by positivity)).1 (Nat.lt_succ_sqrt (x / 4 ^ f.rootShift x))
  refine (Real.sqrt_lt' (by positivity)).2 ?_
  rw [← Nat.cast_add_one, cast_mul_two_pow_sq]
  exact_mod_cast hlt

theorem Fmt.sqrt_eq_rootFloor_iff (f : Fmt) (x : ℕ) : √(x : ℝ) = f.rootFloor x * 2 ^ f.rootShift x ↔
    f.rootFloor x * f.rootFloor x * 4 ^ f.rootShift x = x := by
  rw [Real.sqrt_eq_iff_eq_sq x.cast_nonneg (by positivity), cast_mul_two_pow_sq, Nat.cast_inj, eq_comm]

/-- The rounded pattern of the value in place of the root is that of the root. -/
theorem Fmt.round_rootTwice_nearest (hf : 0 < f.fracBits) (hx : 4 ^ (f.fracBits + 2) ≤ x) :
    f.Nearest (√(x : ℝ) / 2 ^ f.unitLog) (f.round (f.rootTwice x) 2) := by
  have hround := f.round_stepRounded (f.rootTwice x) two_pos
  by_cases hexact : f.rootFloor x * f.rootFloor x * 4 ^ f.rootShift x = x
  · have hroot : √(x : ℝ) = (f.rootTwice x : ℝ) / (2 : ℕ) := by
      rw [(f.sqrt_eq_rootFloor_iff x).2 hexact, Fmt.rootTwice, if_pos hexact]
      push_cast
      ring
    rw [hroot]
    exact hround.nearest hf
  · have hne := Ne.symm (mt (f.sqrt_eq_rootFloor_iff x).1 hexact)
    refine Fmt.StepRounded.nearest hf (hround.of_same_cell (a := f.rootFloor x) (Fmt.rootShift_lt hx)
      ?_ ⟨lt_of_le_of_ne (f.rootFloor_le x) hne, f.lt_rootFloor x⟩)
    have hunit : (0 : ℝ) < 2 ^ f.rootShift x := by positivity
    rw [Fmt.rootTwice, if_neg hexact]
    push_cast
    constructor <;> linarith

/-- The model's root of `m` units. -/
theorem Fmt.sqrt_eq {m : ℕ} (hm : m ≠ 0) (hx : 4 ^ (f.fracBits + 2) ≤ m * f.one) :
    f.sqrt (.fin false m) = some (f.pattern false (f.round (f.rootTwice (m * f.one)) 2)) := by
  simp only [Fmt.sqrt, if_neg hm, Fmt.rootTwice, ← Fmt.intSqrt_eq_rootFloor hx]
  rfl

theorem Fmt.sqrt_rat (m : ℕ) : √((f.rat (.fin false m) : ℚ) : ℝ) = √((m * f.one : ℕ) : ℝ) / 2 ^ f.unitLog := by
  have hunit : (0 : ℝ) < 2 ^ f.unitLog := by positivity
  rw [← Real.sqrt_sq hunit.le, ← Real.sqrt_div (Nat.cast_nonneg _)]
  congr 1
  simp only [Fmt.rat, signed, Bool.false_eq_true, if_false, Fmt.one]
  push_cast
  rw [sq, mul_div_mul_right _ _ hunit.ne']

theorem Fmt.sqrt_roundsTo (hf : 0 < f.fracBits) (hunit : 2 * (f.fracBits + 2) ≤ f.unitLog) {m : ℕ}
    (hm : m ≠ 0) : ∃ r, f.sqrt (.fin false m) = some r ∧ f.RoundsTo √((f.rat (.fin false m) : ℚ) : ℝ) r := by
  have hx : 4 ^ (f.fracBits + 2) ≤ m * f.one := by
    calc 4 ^ (f.fracBits + 2)
      _ = 2 ^ (2 * (f.fracBits + 2)) := four_pow _
      _ ≤ f.one := Nat.pow_le_pow_right two_pos hunit
      _ ≤ m * f.one := Nat.le_mul_of_pos_left _ (Nat.pos_of_ne_zero hm)
  refine ⟨_, Fmt.sqrt_eq hm hx, ?_⟩
  rw [Fmt.sqrt_rat]
  have hpos : 0 < m * f.one := Nat.mul_pos (Nat.pos_of_ne_zero hm) f.one_pos
  exact Fmt.roundsTo_of_nearest (Fmt.round_rootTwice_nearest hf hx) (by positivity) false

end

/-- Settles O43: a quotient is one rounding of its exact value, and a root is rounded as the value the model
puts in its place. -/
theorem quotientsAndRootsRounded : Obligations.QuotientsAndRootsRounded := by
  rintro f n₁ n₂ m₁ m₂ (rfl | rfl) h₁ h₂
  all_goals exact ⟨Fmt.div_roundsTo (by decide) h₁ h₂, Fmt.sqrt_roundsTo (by decide) (by decide) h₁⟩

end Sys2Proof.Machine
end

section
/-! NaNs, infinities and zeros (44_fp_arith.md R332, R334, R335), and O44. -/

namespace Sys2Proof.Machine

/-! ### Which patterns are NaNs -/

theorem Fmt.value_eq_nan_iff_lt (f : Fmt) (bits : ℕ) : f.value bits = .nan ↔ f.infMag < bits % f.signBit := by
  simp only [Fmt.value]
  split_ifs with hlt heq
  · simp [hlt.le]
  · simp [heq]
  · simp only [true_iff]
    omega

/-- A pattern is a NaN when its exponent field is the largest and its fraction is not 0. -/
theorem Fmt.value_eq_nan_iff (f : Fmt) (bits : ℕ) : f.value bits = .nan ↔
    bits / 2 ^ f.fracBits % (f.expMax + 1) = f.expMax ∧ bits % 2 ^ f.fracBits ≠ 0 := by
  have hexp : bits / 2 ^ f.fracBits % (f.expMax + 1) ≤ f.expMax :=
    Nat.le_of_lt_succ (Nat.mod_lt _ f.expMax.succ_pos)
  have hfrac := Nat.mod_lt bits (Nat.two_pow_pos f.fracBits)
  rw [f.value_eq_nan_iff_lt, Fmt.infMag, Fmt.signBit, mul_comm (f.expMax + 1), Nat.mod_mul, mul_comm f.expMax]
  obtain heq | hlt := Nat.eq_or_lt_of_le hexp
  · rw [heq]
    omega
  · have := Nat.mul_le_mul_left (2 ^ f.fracBits) (Nat.succ_le_of_lt hlt)
    rw [Nat.mul_succ] at this
    omega

theorem valueS_eq_nan_iff (w : Word) :
    valueS w = .nan ↔ w.extractLsb' 23 8 = 0xFF#8 ∧ w.extractLsb' 0 23 ≠ 0#23 := by
  rw [valueS, Fmt.value_eq_nan_iff, ← BitVec.toNat_inj, ← BitVec.toNat_ne_iff_ne,
    BitVec.extractLsb'_toNat, BitVec.extractLsb'_toNat, Nat.shiftRight_eq_div_pow, Nat.shiftRight_zero]
  rfl

theorem valueD_eq_nan_iff (d : DWord) :
    valueD d = .nan ↔ d.extractLsb' 52 11 = 0x7FF#11 ∧ d.extractLsb' 0 52 ≠ 0#52 := by
  rw [valueD, Fmt.value_eq_nan_iff, ← BitVec.toNat_inj, ← BitVec.toNat_ne_iff_ne,
    BitVec.extractLsb'_toNat, BitVec.extractLsb'_toNat, Nat.shiftRight_eq_div_pow, Nat.shiftRight_zero]
  rfl

/-- The pattern of a NaN, with either sign. -/
theorem Fmt.value_pattern_nan (f : Fmt) (n : Bool) {p : ℕ} (hlow : f.infMag < p) (hhigh : p < f.signBit) :
    f.value (f.pattern n p) = .nan := by
  rw [f.value_eq_nan_iff_lt, Fmt.pattern]
  cases n <;> simpa [Nat.mod_eq_of_lt hhigh]

theorem Fmt.pattern_lt (f : Fmt) (n : Bool) {p : ℕ} (hhigh : p < f.signBit) : f.pattern n p < 2 * f.signBit := by
  rw [Fmt.pattern]
  split_ifs <;> omega

theorem valueS_nan32Bits (n : Nan32) : valueS (nan32Bits n) = .nan := by
  have hhigh : Fmt.single.infMag + (n.below + 1) < Fmt.single.signBit := by
    have hbelow : Fmt.single.infMag + 8388607 < Fmt.single.signBit := by decide
    omega
  have hword : Fmt.single.pattern n.neg (Fmt.single.infMag + (n.below + 1)) < 2 ^ 32 :=
    Fmt.single.pattern_lt _ hhigh
  rw [valueS, nan32Bits, BitVec.toNat_ofNat, Nat.mod_eq_of_lt hword]
  exact Fmt.single.value_pattern_nan _ (by omega) hhigh

theorem valueD_nan64Bits (n : Nan64) : valueD (nan64Bits n) = .nan := by
  have hhigh : Fmt.double.infMag + (n.below + 1) < Fmt.double.signBit := by
    have hbelow : Fmt.double.infMag + 4503599627370495 < Fmt.double.signBit := by decide
    omega
  have hword : Fmt.double.pattern n.neg (Fmt.double.infMag + (n.below + 1)) < 2 ^ 64 :=
    Fmt.double.pattern_lt _ hhigh
  rw [valueD, nan64Bits, BitVec.toNat_ofNat, Nat.mod_eq_of_lt hword]
  exact Fmt.double.value_pattern_nan _ (by omega) hhigh

/-! ### Which results are NaNs (R332, R334) -/

theorem Fmt.add_eq_none_iff (f : Fmt) : ∀ a b : FpVal,
    f.add a b = none ↔ a = .nan ∨ b = .nan ∨ ∃ g, a = .inf g ∧ b = .inf (!g)
  | .nan, _ | .inf _, .nan | .fin _ _, .nan => by simp [Fmt.add]
  | .inf n, .inf n' => by
    rw [Fmt.add]
    split_ifs with h <;> simp [h, Bool.eq_not, eq_comm (a := n')]
  | .inf _, .fin _ _ | .fin _ _, .inf _ | .fin _ _, .fin _ _ => by simp [Fmt.add]

theorem Fmt.sub_eq_none_iff (f : Fmt) (a b : FpVal) :
    f.sub a b = none ↔ a = .nan ∨ b = .nan ∨ ∃ g, a = .inf g ∧ b = .inf g := by
  rw [Fmt.sub, Fmt.add_eq_none_iff]
  cases b <;> simp [FpVal.negate]

theorem Fmt.mul_eq_none_iff (f : Fmt) : ∀ a b : FpVal, f.mul a b = none ↔ a = .nan ∨ b = .nan ∨
    ∃ g h, (a = .inf g ∧ b = .fin h 0) ∨ (a = .fin h 0 ∧ b = .inf g)
  | .nan, _ | .inf _, .nan | .fin _ _, .nan => by simp [Fmt.mul]
  | .inf _, .fin _ _ | .fin _ _, .inf _ => by simp [Fmt.mul]
  | .inf _, .inf _ | .fin _ _, .fin _ _ => by simp [Fmt.mul]

theorem Fmt.div_eq_none_iff (f : Fmt) : ∀ a b : FpVal, f.div a b = none ↔ a = .nan ∨ b = .nan ∨
    ∃ g h, (a = .inf g ∧ b = .inf h) ∨ (a = .fin g 0 ∧ b = .fin h 0)
  | .nan, _ | .inf _, .nan | .fin _ _, .nan => by simp [Fmt.div]
  | .inf _, .inf _ => by simp [Fmt.div]
  | .fin _ m, .fin _ m' => by
    rw [Fmt.div]
    split_ifs with hm' hm <;> simp [*]
  | .inf _, .fin _ _ | .fin _ _, .inf _ => by simp [Fmt.div]

theorem Fmt.sqrt_eq_none_iff (f : Fmt) : ∀ a : FpVal,
    f.sqrt a = none ↔ a = .nan ∨ a = .inf true ∨ ∃ k, k ≠ 0 ∧ a = .fin true k
  | .nan => by simp [Fmt.sqrt]
  | .inf _ => by simp [Fmt.sqrt]
  | .fin n m => by
    rw [Fmt.sqrt]
    split_ifs with hm hn <;> simp [*]

theorem Fmt.add_inf_eq_none_iff (f : Fmt) (g : Bool) (c : FpVal) :
    f.add (.inf g) c = none ↔ c = .nan ∨ c = .inf (!g) := by
  simp [Fmt.add_eq_none_iff]

/-! An infinite product is added as an infinity, whatever the addend. -/

theorem Fmt.fma_inf_inf (f : Fmt) (n n' : Bool) (c : FpVal) :
    f.fma (.inf n) (.inf n') c = f.add (.inf (n != n')) c := by
  cases c <;> rfl

theorem Fmt.fma_inf_fin (f : Fmt) (n n' : Bool) (m : ℕ) (c : FpVal) :
    f.fma (.inf n) (.fin n' m) c = if m = 0 then none else f.add (.inf (n != n')) c := by
  cases c with
  | nan => exact (ite_self _).symm
  | inf _ => rfl
  | fin _ _ => rfl

theorem Fmt.fma_fin_inf (f : Fmt) (n n' : Bool) (m : ℕ) (c : FpVal) :
    f.fma (.fin n m) (.inf n') c = if m = 0 then none else f.add (.inf (n != n')) c := by
  cases c with
  | nan => exact (ite_self _).symm
  | inf _ => rfl
  | fin _ _ => rfl

theorem Fmt.fma_eq_none_iff (f : Fmt) : ∀ a b c : FpVal, f.fma a b c = none ↔
    a = .nan ∨ b = .nan ∨ c = .nan ∨
      (∃ g h, (a = .inf g ∧ b = .fin h 0) ∨ (a = .fin h 0 ∧ b = .inf g)) ∨
      ∃ g h, c = .inf (!(g != h)) ∧
        ((a = .inf g ∧ b = .inf h) ∨ (∃ k, k ≠ 0 ∧ a = .inf g ∧ b = .fin h k) ∨
          ∃ k, k ≠ 0 ∧ a = .fin g k ∧ b = .inf h)
  | .nan, _, _ | .inf _, .nan, _ | .fin _ _, .nan, _ | .fin _ _, .fin _ _, .nan => by simp [Fmt.fma]
  | .inf n, .inf n', c => by
    rw [Fmt.fma_inf_inf, Fmt.add_inf_eq_none_iff]
    simp
  | .inf n, .fin n' m, c => by
    rw [Fmt.fma_inf_fin]
    split_ifs with hm
    · simp [hm]
    · rw [Fmt.add_inf_eq_none_iff]
      simp [hm, Nat.pos_of_ne_zero hm, -Bool.exists_bool]
  | .fin n m, .inf n', c => by
    rw [Fmt.fma_fin_inf]
    split_ifs with hm
    · simp [hm]
    · rw [Fmt.add_inf_eq_none_iff]
      simp [hm, Nat.pos_of_ne_zero hm, -Bool.exists_bool]
  | .fin _ _, .fin _ _, .inf _ | .fin _ _, .fin _ _, .fin _ _ => by simp [Fmt.fma]

/-! ### Zeros and infinities (R334, R335) -/

section

variable (f : Fmt) (n n' : Bool) (m : ℕ)

theorem Fmt.round_zero {den : ℕ} : f.round 0 den = 0 := by
  simp [Fmt.round, roundTiesEven]

theorem Fmt.roundSum_zero (den : ℕ) (b : Bool) : f.roundSum 0 den b = f.pattern b 0 := if_pos rfl

theorem Fmt.add_zero_zero : f.add (.fin n 0) (.fin n' 0) = some (f.pattern (n && n') 0) := by
  cases n <;> cases n' <;> rfl

theorem Fmt.add_opposite : f.add (.fin n m) (.fin (!n) m) = some (f.pattern false 0) := by
  rw [Fmt.add, signed_not, add_neg_cancel, Fmt.roundSum_zero, Bool.and_not_self]

protected theorem Fmt.sub_self : f.sub (.fin n m) (.fin n m) = some (f.pattern false 0) := f.add_opposite n m

theorem Fmt.mul_zero_left : f.mul (.fin n 0) (.fin n' m) = some (f.pattern (n != n') 0) := by
  rw [Fmt.mul, Nat.zero_mul, Fmt.round_zero]

theorem Fmt.mul_zero_right : f.mul (.fin n m) (.fin n' 0) = some (f.pattern (n != n') 0) := by
  rw [Fmt.mul, Nat.mul_zero, Fmt.round_zero]

theorem Fmt.div_zero_left (hm : m ≠ 0) : f.div (.fin n 0) (.fin n' m) = some (f.pattern (n != n') 0) := by
  rw [Fmt.div, if_neg hm, Nat.zero_mul, Fmt.round_zero]

theorem Fmt.div_by_zero (hm : m ≠ 0) :
    f.div (.fin n m) (.fin n' 0) = some (f.pattern (n != n') f.infMag) := if_neg hm

theorem Fmt.sqrt_zero : f.sqrt (.fin n 0) = some (f.pattern n 0) := rfl

/-- An infinity and an addend that is finite or the same infinity. -/
theorem Fmt.add_inf_left {c : FpVal} (hc : (∃ g k, c = .fin g k) ∨ c = .inf n) :
    f.add (.inf n) c = some (f.pattern n f.infMag) := by
  obtain ⟨g, k, rfl⟩ | rfl := hc
  · rfl
  · exact if_pos rfl

theorem Fmt.sub_inf_inf : f.sub (.inf n) (.inf !n) = some (f.pattern n f.infMag) :=
  f.add_inf_left n (.inr (congrArg FpVal.inf n.not_not))

theorem Fmt.fma_exact_zero (n'' : Bool) (m' m'' : ℕ)
    (h : f.rat (.fin n m) * f.rat (.fin n' m') + f.rat (.fin n'' m'') = 0) :
    f.fma (.fin n m) (.fin n' m') (.fin n'' m'') = some (f.pattern ((n != n') && n'') 0) := by
  have hz : signed (n != n') (m * m') + signed n'' (m'' * f.one) = 0 := by
    rw [f.rat_fma, div_eq_zero_iff, f.cast_one] at h
    exact_mod_cast h.resolve_right (by positivity)
  rw [Fmt.fma, hz, Fmt.roundSum_zero]

end

/-- Settles O44: the NaN patterns by their fields, the NaN results and the others case by case of the
operands, an infinite product as an infinite addend. -/
theorem specialValues : Obligations.SpecialValues := by
  refine ⟨fun _ _ => ⟨valueS_nan32Bits _, valueD_nan64Bits _⟩, valueS_eq_nan_iff, valueD_eq_nan_iff,
    fun f a b c n n' n'' m m' m'' => ⟨f.add_eq_none_iff a b, f.sub_eq_none_iff a b, f.mul_eq_none_iff a b,
      f.div_eq_none_iff a b, f.sqrt_eq_none_iff a, f.fma_eq_none_iff a b c, f.div_by_zero n n' m,
      f.mul_zero_left n n' m, f.div_zero_left n n' m, f.add_zero_zero n n', f.mul_zero_right n n' m,
      f.add_opposite n m, f.sub_self n m, f.add_zero_zero n (!n'), f.sqrt_zero n, f.fma_exact_zero n n' m n'' m' m'',
      rfl, rfl, if_pos rfl, rfl, rfl, f.sub_inf_inf n, rfl, fun hm => ⟨if_neg hm, if_neg hm⟩, rfl, rfl, rfl, rfl,
      fun hc => ?_⟩⟩
  have hadd := f.add_inf_left (n != n') (hc.imp_left fun ⟨k, hk⟩ => ⟨n'', k, hk⟩)
  exact ⟨(f.fma_inf_inf n n' c).trans hadd, fun hm =>
    ⟨(f.fma_inf_fin n n' m c).trans ((if_neg hm).trans hadd),
      (f.fma_fin_inf n n' m c).trans ((if_neg hm).trans hadd)⟩⟩

end Sys2Proof.Machine
end

section
/-! The floating-point arithmetic instructions (44_fp_arith.md): what each shared form gives once its
operands are written, and O38 to O40. -/

namespace Sys2Proof.Machine

section

variable {i : Instr} {s : State} {fd fr fs ft : Fpr}

theorem State.readS_of_has (h : s.HasS fs) : s.readS fs = .ok (s.patS fs) := s.readS_written fs h

theorem State.readD_of_has (h : s.HasD fs) : s.readD fs = .ok (s.patD fs) := s.readD_written fs h.1 h.2

/-- A single destination: slot fd takes the pattern, and pc advances. -/
theorem complete_writeS (h : s.Advances) (b : Word) :
    complete i s (.ok (s.writeS fd b)) = .next { s with fpr := slotsS s.fpr fd b, pc := s.pc + 4#32 } :=
  complete_ok i s _ h

/-- A double destination: both its slots. -/
theorem complete_writeD (h : s.Advances) (b : DWord) :
    complete i s (.ok (s.writeD fd b)) = .next { s with fpr := slotsD s.fpr fd b, pc := s.pc + 4#32 } :=
  complete_ok i s _ h

theorem arithS_of_has (h : s.Advances) (hs : s.HasS fs) (ht : s.HasS ft) (op : NanOp)
    (f : FpVal → FpVal → FpResult) :
    arithS i s op f fd fs ft =
      .next { s with
        fpr := slotsS s.fpr fd (resultS op [.single (s.patS fs), .single (s.patS ft)]
          (f (valueS (s.patS fs)) (valueS (s.patS ft)))),
        pc := s.pc + 4#32 } := by
  rw [arithS, State.readS_of_has hs, State.readS_of_has ht]
  exact complete_writeS h _

theorem fusedS_of_has (h : s.Advances) (hr : s.HasS fr) (hs : s.HasS fs) (ht : s.HasS ft) (op : NanOp)
    (f : FpVal → FpVal → FpVal → FpResult) :
    fusedS i s op f fd fr fs ft =
      .next { s with
        fpr := slotsS s.fpr fd (resultS op [.single (s.patS fr), .single (s.patS fs), .single (s.patS ft)]
          (f (valueS (s.patS fs)) (valueS (s.patS ft)) (valueS (s.patS fr)))),
        pc := s.pc + 4#32 } := by
  rw [fusedS, State.readS_of_has hs, State.readS_of_has ht, State.readS_of_has hr]
  exact complete_writeS h _

theorem patternS_of_has (h : s.Advances) (hs : s.HasS fs) (f : Word → Word) :
    patternS i s f fd fs =
      .next { s with fpr := slotsS s.fpr fd (f (s.patS fs)), pc := s.pc + 4#32 } := by
  rw [patternS, State.readS_of_has hs]
  exact complete_writeS h _

theorem arithD_of_has (h : s.Advances) (hfd : fd ≠ 31) (hfs : fs ≠ 31) (hft : ft ≠ 31) (hs : s.HasD fs)
    (ht : s.HasD ft) (op : NanOp) (f : FpVal → FpVal → FpResult) :
    arithD i s op f fd fs ft =
      .next { s with
        fpr := slotsD s.fpr fd (resultD op [.double (s.patD fs), .double (s.patD ft)]
          (f (valueD (s.patD fs)) (valueD (s.patD ft)))),
        pc := s.pc + 4#32 } := by
  rw [arithD, checkDouble_of_ne fd hfd, checkDouble_of_ne fs hfs, checkDouble_of_ne ft hft,
    State.readD_of_has hs, State.readD_of_has ht]
  exact complete_writeD h _

theorem fusedD_of_has (h : s.Advances) (hfd : fd ≠ 31) (hfr : fr ≠ 31) (hfs : fs ≠ 31) (hft : ft ≠ 31)
    (hr : s.HasD fr) (hs : s.HasD fs) (ht : s.HasD ft) (op : NanOp)
    (f : FpVal → FpVal → FpVal → FpResult) :
    fusedD i s op f fd fr fs ft =
      .next { s with
        fpr := slotsD s.fpr fd (resultD op [.double (s.patD fr), .double (s.patD fs), .double (s.patD ft)]
          (f (valueD (s.patD fs)) (valueD (s.patD ft)) (valueD (s.patD fr)))),
        pc := s.pc + 4#32 } := by
  rw [fusedD, checkDouble_of_ne fd hfd, checkDouble_of_ne fr hfr, checkDouble_of_ne fs hfs,
    checkDouble_of_ne ft hft, State.readD_of_has hs, State.readD_of_has ht, State.readD_of_has hr]
  exact complete_writeD h _

theorem patternD_of_has (h : s.Advances) (hfd : fd ≠ 31) (hfs : fs ≠ 31) (hs : s.HasD fs)
    (f : DWord → DWord) :
    patternD i s f fd fs =
      .next { s with fpr := slotsD s.fpr fd (f (s.patD fs)), pc := s.pc + 4#32 } := by
  rw [patternD, checkDouble_of_ne fd hfd, checkDouble_of_ne fs hfs, State.readD_of_has hs]
  exact complete_writeD h _

end

/-- Settles O38: each instruction is one of three shared forms on singles. -/
theorem singleArithmetic : Obligations.SingleArithmetic := fun _ _ _ _ _ h hs ht hr =>
  ⟨arithS_of_has h hs ht .., arithS_of_has h hs ht .., arithS_of_has h hs ht .., arithS_of_has h hs ht ..,
    patternS_of_has h hs _, fusedS_of_has h hr hs ht .., fusedS_of_has h hr hs ht ..⟩

/-- Settles O39: each instruction is one of three shared forms on doubles. -/
theorem doubleArithmetic : Obligations.DoubleArithmetic := by
  intro s fd fs ft fr h hfd hfs hft hfr hs ht hr
  have harith {i : Instr} := arithD_of_has (i := i) h hfd hfs hft hs ht
  have hfused {i : Instr} := fusedD_of_has (i := i) h hfd hfr hfs hft hr hs ht
  exact ⟨harith .., harith .., harith .., harith .., patternD_of_has h hfd hfs hs _, hfused .., hfused ..⟩

/-- The sign bit of a double is that of its high word: the mask of abs.d is the mask of abs.s above ones. -/
theorem append_and_signMask (hi lo : Word) :
    (hi ++ lo) &&& 0x7FFFFFFFFFFFFFFF#64 = (hi &&& 0x7FFFFFFF#32) ++ lo := by
  have hmask : 0x7FFFFFFFFFFFFFFF#64 = 0x7FFFFFFF#32 ++ BitVec.allOnes 32 := by decide
  rw [hmask, BitVec.and_append, BitVec.and_allOnes]

theorem append_xor_signBit (hi lo : Word) :
    (hi ++ lo) ^^^ 0x8000000000000000#64 = (hi ^^^ 0x80000000#32) ++ lo := by
  have hmask : 0x8000000000000000#64 = 0x80000000#32 ++ 0#32 := by decide
  rw [hmask, BitVec.xor_append, BitVec.xor_zero]

/-- Settles O40: each is an operation on the pattern, and on a double's pattern one on its high word. -/
theorem signOperations : Obligations.SignOperations := by
  refine fun s fd fs h => ⟨fun hs => ⟨patternS_of_has h hs _, patternS_of_has h hs _,
    patternS_of_has h hs _⟩, fun hfd hfs hs => ?_⟩
  have hpattern {i : Instr} := patternD_of_has (i := i) h hfd hfs hs
  refine ⟨?_, ?_, hpattern _⟩
  · exact append_and_signMask _ _ ▸ hpattern _
  · exact append_xor_signBit _ _ ▸ hpattern _

end Sys2Proof.Machine
end

section
/-! Comparison of values (45_fp_compare_convert.md R380): the model's order is that of the numbers, and O46. -/

namespace Sys2Proof.Machine

theorem FpVal.nan_le (a : FpVal) : FpVal.nan.le a = false := rfl

theorem FpVal.le_nan (a : FpVal) : a.le .nan = false := by cases a <;> rfl

theorem FpVal.eq_iff (a b : FpVal) : a.eq b = true ↔ a.le b = true ∧ b.le a = true := Bool.and_eq_true_iff

theorem FpVal.lt_iff (a b : FpVal) : a.lt b = true ↔ a.le b = true ∧ ¬ b.le a = true := by
  rw [FpVal.lt, Bool.and_eq_true_iff, Bool.not_eq_true', Bool.not_eq_true]

/-- The unit is positive, so numbers of units compare as the numbers. -/
theorem FpVal.fin_le_fin_iff (f : Fmt) (n n' : Bool) (m m' : ℕ) :
    (FpVal.fin n m).le (.fin n' m') = true ↔ f.rat (.fin n m) ≤ f.rat (.fin n' m') := by
  rw [FpVal.le, decide_eq_true_iff, f.rat_fin, f.rat_fin, div_le_div_iff_of_pos_right (by positivity),
    Int.cast_le]

/-- Settles O46: EQ and LT are made of LE, which is the order of the numbers. -/
theorem comparisonPredicates : Obligations.ComparisonPredicates := by
  refine ⟨fun a => ?_, fun a b => ?_, fun f n n' m m' => ?_, fun n m => ?_⟩
  · simp [FpVal.eq, FpVal.lt, FpVal.nan_le, FpVal.le_nan]
  · simp [FpVal.unordered]
  · have hle := FpVal.fin_le_fin_iff f n n' m m'
    have hge := FpVal.fin_le_fin_iff f n' n m' m
    refine ⟨?_, hle, ?_⟩
    · rw [FpVal.eq_iff, hle, hge, le_antisymm_iff]
    · rw [FpVal.lt_iff, hle, hge, lt_iff_le_not_ge]
  · exact ⟨rfl, rfl, rfl, rfl, rfl, fun g => by cases g <;> exact ⟨rfl, rfl⟩⟩

end Sys2Proof.Machine
end

section
/-! Conversions between the formats and from words (45_fp_compare_convert.md R404 to R407): what a pattern is
again as a value, and which numbers of units are not changed by rounding. -/

namespace Sys2Proof.Machine

/-! ### A pattern and its value -/

section

variable (f : Fmt)

/-- The value reads no bit above the sign. -/
theorem Fmt.value_mod (bits : ℕ) : f.value (bits % (2 * f.signBit)) = f.value bits := by
  simp only [Fmt.value, mul_comm 2 f.signBit, Nat.mod_mul_right_div_self, Nat.mod_mul_right_mod, Nat.mod_mod]

theorem valueD_ofNat (bits : ℕ) : valueD (BitVec.ofNat 64 bits) = Fmt.double.value bits := by
  rw [valueD, BitVec.toNat_ofNat, ← Fmt.double.value_mod bits]
  rfl

theorem Fmt.infMag_le_signBit : f.infMag ≤ f.signBit := Nat.mul_le_mul_right _ f.expMax.le_succ

theorem Fmt.value_pattern_fin (n : Bool) {p : ℕ} (hp : p < f.infMag) :
    f.value (f.pattern n p) = .fin n (f.magOf p) := by
  have hlt : p < f.signBit := hp.trans_le f.infMag_le_signBit
  have hneg : f.pattern n p / f.signBit % 2 = if n then 1 else 0 := by
    cases n <;> simp [Fmt.pattern, Nat.div_eq_of_lt hlt, Nat.add_div_left p (Nat.zero_lt_of_lt hlt)]
  have hmag : f.pattern n p % f.signBit = p := by
    cases n <;> simp [Fmt.pattern, Nat.mod_eq_of_lt hlt]
  simp only [Fmt.value, hneg, hmag, if_pos hp]
  cases n <;> rfl

/-- The magnitude of a finite value is that of a finite pattern. -/
theorem Fmt.exists_of_value_eq_fin {f : Fmt} {bits m : ℕ} {n : Bool} (h : f.value bits = .fin n m) :
    ∃ p < f.infMag, f.magOf p = m := by
  simp only [Fmt.value] at h
  split_ifs at h with hlt
  exact ⟨_, hlt, (FpVal.fin.inj h).2⟩

end

/-! ### Numbers that rounding does not change -/

section

variable {f : Fmt}

/-- The value of a pattern rounds to the pattern. -/
theorem Fmt.round_eq_of_magOf (hf : 0 < f.fracBits) {p num den : ℕ} (hp : p ≤ f.infMag) (hden : 0 < den)
    (hnum : num = f.magOf p * den) : f.round num den = p := by
  have hclosest := (((f.nearest_div_iff _ _).1 (f.round_nearest hf num hden)).2 p hp).1
  have hvalue : (num : ℝ) / den = f.magOf p := by
    rw [hnum, Nat.cast_mul, mul_div_cancel_right₀ _ (Nat.cast_ne_zero.2 hden.ne')]
  rw [hvalue, sub_self, abs_zero, abs_nonpos_iff, sub_eq_zero, Nat.cast_inj] at hclosest
  exact f.magOf_strictMono.injective hclosest

/-- A number of fracBits+1 bits, shifted left, is a finite pattern's value. -/
theorem Fmt.exists_magOf_eq {t r : ℕ} (ht : t + 2 ≤ f.expMax) (hr : r < 2 * 2 ^ f.fracBits) :
    ∃ p < f.infMag, f.magOf p = r * 2 ^ t := by
  induction t generalizing r with
  | zero =>
    refine ⟨0 * 2 ^ f.fracBits + r, ?_, f.magOf_steps (.inl rfl) hr.le⟩
    have := Nat.mul_le_mul_right (2 ^ f.fracBits) ht
    simp only [Fmt.infMag]
    omega
  | succ t ih =>
    obtain hsub | hlow := Nat.lt_or_ge r (2 ^ f.fracBits)
    · obtain ⟨p, hp, hmag⟩ := ih (r := 2 * r) (by omega) (by omega)
      exact ⟨p, hp, hmag.trans (by ring)⟩
    · refine ⟨(t + 1) * 2 ^ f.fracBits + r, ?_, f.magOf_steps (.inr hlow) hr.le⟩
      calc (t + 1) * 2 ^ f.fracBits + r
        _ < (t + 1) * 2 ^ f.fracBits + 2 * 2 ^ f.fracBits := by omega
        _ = (t + 1 + 2) * 2 ^ f.fracBits := by ring
        _ ≤ f.infMag := Nat.mul_le_mul_right _ ht

/-- Such a number of units is rounded to a pattern that has it as its value. -/
theorem Fmt.value_pattern_round (hf : 0 < f.fracBits) (n : Bool) {t r num den : ℕ} (ht : t + 2 ≤ f.expMax)
    (hr : r < 2 * 2 ^ f.fracBits) (hden : 0 < den) (hnum : num = r * 2 ^ t * den) :
    f.value (f.pattern n (f.round num den)) = .fin n (r * 2 ^ t) := by
  obtain ⟨p, hp, hmag⟩ := Fmt.exists_magOf_eq ht hr
  rw [Fmt.round_eq_of_magOf hf hp.le hden (by rw [hnum, hmag]), f.value_pattern_fin n hp, hmag]

/-- A finite value has fracBits+1 bits, shifted left by less than the largest exponent. -/
theorem Fmt.exists_bits_of_value_eq_fin {bits m : ℕ} {n : Bool} (h : f.value bits = .fin n m) :
    ∃ s r, s < f.expMax ∧ r < 2 * 2 ^ f.fracBits ∧ m = r * 2 ^ s := by
  obtain ⟨p, hp, rfl⟩ := Fmt.exists_of_value_eq_fin h
  obtain ⟨s, r, rfl, hlow, hhigh⟩ := f.exists_steps p
  refine ⟨s, r, ?_, hhigh, f.magOf_steps hlow hhigh.le⟩
  exact lt_of_mul_lt_mul_right ((Nat.le_add_right _ r).trans_lt hp) (Nat.zero_le _)

/-- The factor of a signed number of units. -/
theorem cast_signed_mul (n : Bool) (m k : ℕ) : (signed n (m * k) : ℚ) = signed n m * k := by
  cases n <;> simp [signed]

/-- The same number in units that are 2^d times finer. -/
theorem Fmt.rat_shift {f g : Fmt} {d : ℕ} (hd : g.unitLog = f.unitLog + d) (n : Bool) (m : ℕ) :
    g.rat (.fin n (m * 2 ^ d)) = f.rat (.fin n m) := by
  rw [g.rat_fin, f.rat_fin, cast_signed_mul, Nat.cast_pow, Nat.cast_two, hd, pow_add,
    mul_div_mul_right _ _ (by positivity)]

end

/-! ### The conversions -/

/-- Widening is exact: a value keeps its bits, shifted left to the finer unit, and rounding does not change
them. -/
theorem Fmt.value_convert {f g : Fmt} {d : ℕ} (hg : 0 < g.fracBits) (hunit : g.unitLog = f.unitLog + d)
    (hfrac : f.fracBits ≤ g.fracBits) (hexp : f.expMax + d + 1 ≤ g.expMax) {bits m : ℕ} {n : Bool}
    (h : f.value bits = .fin n m) :
    ∃ r, f.convert g (.fin n m) = some r ∧ g.value r = .fin n (m * 2 ^ d) := by
  obtain ⟨s, r, hs, hr, rfl⟩ := Fmt.exists_bits_of_value_eq_fin h
  have hone : g.one = 2 ^ d * f.one := by rw [Fmt.one, hunit, Nat.pow_add, Nat.mul_comm]; rfl
  have hbits : r * 2 ^ s * 2 ^ d = r * 2 ^ (s + d) := by rw [Nat.mul_assoc, Nat.pow_add]
  refine ⟨_, rfl, ?_⟩
  rw [hone, ← Nat.mul_assoc, hbits]
  refine Fmt.value_pattern_round hg n (by omega) (hr.trans_le ?_) f.one_pos rfl
  exact Nat.mul_le_mul_left 2 (Nat.pow_le_pow_right two_pos hfrac)

theorem Fmt.convert_roundsTo {f g : Fmt} (hg : 0 < g.fracBits) (n : Bool) {m : ℕ} (hm : m ≠ 0) :
    ∃ r, f.convert g (.fin n m) = some r ∧ g.RoundsTo ((f.rat (.fin n m) : ℚ) : ℝ) r := by
  refine ⟨_, rfl, Fmt.roundsTo_round hg f.one_pos (Nat.mul_ne_zero hm g.one_pos.ne') ?_⟩
  rw [f.rat_fin, cast_signed_mul, g.cast_one, f.cast_one, mul_div_mul_right _ _ (by positivity)]

/-- An integer is rounded once, 0 included. -/
theorem Fmt.ofInt_roundsTo {f : Fmt} (hf : 0 < f.fracBits) (z : ℤ) : f.RoundsTo (z : ℝ) (f.ofInt z) := by
  have hunits : ((z.natAbs * f.one : ℕ) : ℝ) / (1 : ℕ) / 2 ^ f.unitLog = |(z : ℝ)| := by
    rw [Nat.cast_one, div_one, Nat.cast_mul, Nat.cast_natAbs, Int.cast_abs, Fmt.one, Nat.cast_pow,
      Nat.cast_two, mul_div_cancel_right₀ _ (by positivity)]
  refine ⟨f.round (z.natAbs * f.one) 1, hunits ▸ f.round_nearest hf _ Nat.one_pos, fun hneg => ?_,
    fun hpos => ?_⟩
  · rw [Fmt.ofInt, decide_eq_true (Int.cast_lt_zero.1 hneg)]
  · rw [Fmt.ofInt, decide_eq_false (Int.cast_nonneg_iff.1 hpos).not_gt]

/-- An integer of no more bits than the significand is a value of the format. -/
theorem Fmt.rat_value_ofInt {f : Fmt} (hf : 0 < f.fracBits) (hexp : f.unitLog + 2 ≤ f.expMax) {z : ℤ}
    (hz : z.natAbs < 2 * 2 ^ f.fracBits) : f.rat (f.value (f.ofInt z)) = z := by
  have hnum : z.natAbs * f.one = z.natAbs * 2 ^ f.unitLog * 1 := (Nat.mul_one _).symm
  rw [Fmt.ofInt, Fmt.value_pattern_round hf _ hexp hz Nat.one_pos hnum, f.rat_fin, cast_signed_mul,
    signed_natAbs, Nat.cast_pow, Nat.cast_two, mul_div_cancel_right₀ _ (by positivity)]

theorem natAbs_toInt_le (a : Word) : a.toInt.natAbs ≤ 2 ^ 31 := by
  have := a.toInt_lt
  have := a.le_toInt
  omega

end Sys2Proof.Machine
end

section
/-! The integer that a rounding mode names (45_fp_compare_convert.md R403): floors and ceilings of a number of
units, the nearest integer as the only one of its kind, and O49. -/

namespace Sys2Proof.Machine

/-! ### The nearest integer -/

/-- `z` is an integer nearest to `x`, and the even one of two. -/
def IsNearestEven (x : ℚ) (z : ℤ) : Prop := |(z : ℚ) - x| ≤ 1 / 2 ∧ (|(z : ℚ) - x| = 1 / 2 → z % 2 = 0)

theorem IsNearestEven.neg {x : ℚ} {z : ℤ} (h : IsNearestEven x z) : IsNearestEven (-x) (-z) := by
  have hdist : |((-z : ℤ) : ℚ) - -x| = |(z : ℚ) - x| := by
    rw [Int.cast_neg, neg_sub_neg, abs_sub_comm]
  refine ⟨hdist ▸ h.1, fun htie => ?_⟩
  have := h.2 (hdist ▸ htie)
  omega

/-- Of two such integers the larger is no larger: one step apart they would both be ties, and both even. -/
theorem IsNearestEven.le {x : ℚ} {z z' : ℤ} (h : IsNearestEven x z) (h' : IsNearestEven x z') : z ≤ z' := by
  by_contra! hlt
  have hstep : (z' : ℚ) + 1 ≤ z := by exact_mod_cast hlt
  have hz := (le_abs_self _).trans h.1
  have hz' := (neg_le_abs _).trans h'.1
  have heven := h.2 (le_antisymm h.1 (le_abs.2 (.inl (by linarith))))
  have heven' := h'.2 (le_antisymm h'.1 (le_abs.2 (.inr (by linarith))))
  have hsucc : (z : ℚ) = (z' + 1 : ℤ) := by push_cast; linarith
  have := Int.cast_injective hsucc
  omega

theorem IsNearestEven.unique {x : ℚ} {z z' : ℤ} (h : IsNearestEven x z) (h' : IsNearestEven x z') : z = z' :=
  le_antisymm (h.le h') (h'.le h)

theorem isNearestEven_roundTiesEven (m : ℕ) {d : ℕ} (hd : 0 < d) :
    IsNearestEven ((m : ℚ) / d) (roundTiesEven m d) := by
  obtain ⟨hbelow, habove, htie⟩ := roundTiesEven_spec m hd
  generalize roundTiesEven m d = q at *
  have hd' : (0 : ℚ) < d := by exact_mod_cast hd
  have hm : (m : ℚ) = m / d * d := (div_mul_cancel₀ _ hd'.ne').symm
  have hlow : (q : ℚ) - m / d ≤ 1 / 2 := by
    have : (2 * q * d : ℚ) ≤ 2 * m + d := by exact_mod_cast hbelow
    nlinarith
  have hhigh : m / d - (q : ℚ) ≤ 1 / 2 := by
    have : (2 * m : ℚ) ≤ (2 * q + 1) * d := by exact_mod_cast habove
    nlinarith
  rw [IsNearestEven, Int.cast_natCast]
  refine ⟨abs_sub_le_iff.2 ⟨hlow, hhigh⟩, fun heq => ?_⟩
  have heven : q % 2 = 0 := by
    refine htie ?_
    obtain heq | heq := (abs_eq (by norm_num)).1 heq
    · have hq : (2 * q * d : ℚ) = 2 * m + d := by linear_combination (2 * d : ℚ) * heq - 2 * hm
      exact .inl (by exact_mod_cast hq)
    · have hq : (2 * m : ℚ) = (2 * q + 1) * d := by linear_combination (-2 * d : ℚ) * heq + 2 * hm
      exact .inr (by exact_mod_cast hq)
  exact_mod_cast heven

/-! ### The integer of a mode -/

section

variable (f : Fmt) (m : ℕ)

/-- A non-negative number of units. -/
theorem Fmt.rat_fin_false : f.rat (.fin false m) = (m : ℚ) / f.one := by simp [Fmt.rat, signed, f.cast_one]

theorem Fmt.rat_fin_true : f.rat (.fin true m) = -((m : ℚ) / f.one) := by
  rw [← f.rat_fin_false, ← f.rat_negate]; rfl

theorem Fmt.floor_units : ⌊(m : ℚ) / f.one⌋ = (m / f.one : ℕ) := Rat.floor_natCast_div_natCast m f.one

theorem Fmt.ceil_units : ⌈(m : ℚ) / f.one⌉ = ((m + f.one - 1) / f.one : ℕ) := by
  rw [← Int.natCast_ceil_eq_ceil (by positivity), ← Nat.ceilDiv_eq_add_pred_div, Nat.cast_inj]
  refine eq_of_forall_ge_iff fun c => ?_
  rw [Nat.ceil_le, ceilDiv_le_iff_le_smul f.one_pos, div_le_iff₀ (Nat.cast_pos.2 f.one_pos), smul_eq_mul,
    mul_comm]
  exact_mod_cast Iff.rfl

/-- The integer the mode names is the one the model computes. -/
theorem Fmt.toInt_floor (n : Bool) : f.toInt .floor n m = ⌊f.rat (.fin n m)⌋ := by
  cases n with
  | false => rw [f.rat_fin_false, f.floor_units]; rfl
  | true => rw [f.rat_fin_true, Int.floor_neg, f.ceil_units]; rfl

theorem Fmt.toInt_ceiling (n : Bool) : f.toInt .ceiling n m = ⌈f.rat (.fin n m)⌉ := by
  cases n with
  | false => rw [f.rat_fin_false, f.ceil_units]; rfl
  | true => rw [f.rat_fin_true, Int.ceil_neg, f.floor_units]; rfl

theorem Fmt.toInt_truncate (n : Bool) : f.toInt .truncate n m =
    if 0 ≤ f.rat (.fin n m) then ⌊f.rat (.fin n m)⌋ else ⌈f.rat (.fin n m)⌉ := by
  cases n with
  | false =>
    rw [f.rat_fin_false, if_pos (by positivity), f.floor_units]
    rfl
  | true =>
    have hceil : f.toInt .truncate true m = ⌈f.rat (.fin true m)⌉ := f.toInt_ceiling m true
    split_ifs with hpos
    · have hzero : f.rat (.fin true m) = 0 := by
        refine le_antisymm ?_ hpos
        rw [f.rat_fin_true, Left.neg_nonpos_iff]
        positivity
      rw [hceil, hzero, Int.ceil_zero, Int.floor_zero]
    · exact hceil

theorem Fmt.toInt_nearestEven (n : Bool) : IsNearestEven (f.rat (.fin n m)) (f.toInt .nearestEven n m) := by
  have hunits := isNearestEven_roundTiesEven m f.one_pos
  cases n with
  | false => exact f.rat_fin_false m ▸ hunits
  | true => exact f.rat_fin_true m ▸ hunits.neg

end

/-- `z` is the integer the mode names for `x` (R403). -/
def NamesInteger (mode : WordRounding) (x : ℚ) (z : ℤ) : Prop :=
  (mode = .truncate → z = if 0 ≤ x then ⌊x⌋ else ⌈x⌉) ∧ (mode = .floor → z = ⌊x⌋) ∧
    (mode = .ceiling → z = ⌈x⌉) ∧ (mode = .nearestEven → IsNearestEven x z)

/-- The model computes the integer that the mode names. -/
theorem Fmt.toInt_eq_of_namesInteger {f : Fmt} {mode : WordRounding} {n : Bool} {m : ℕ} {z : ℤ}
    (h : NamesInteger mode (f.rat (.fin n m)) z) : f.toInt mode n m = z := by
  obtain ⟨htruncate, hfloor, hceiling, hnearest⟩ := h
  cases mode with
  | truncate => exact (f.toInt_truncate m n).trans (htruncate rfl).symm
  | floor => exact (f.toInt_floor m n).trans (hfloor rfl).symm
  | ceiling => exact (f.toInt_ceiling m n).trans (hceiling rfl).symm
  | nearestEven => exact (f.toInt_nearestEven m n).unique (hnearest rfl)

theorem Fmt.toWord_fin (f : Fmt) (mode : WordRounding) (n : Bool) (m : ℕ) :
    f.toWord mode (.fin n m) = if -2 ^ 31 ≤ f.toInt mode n m ∧ f.toInt mode n m ≤ 2 ^ 31 - 1 then
      some (BitVec.ofInt 32 (f.toInt mode n m)) else none := rfl

theorem Fmt.convert_zero (f g : Fmt) (n : Bool) : f.convert g (.fin n 0) = some (g.pattern n 0) := by
  rw [Fmt.convert, Nat.zero_mul, Fmt.round_zero]

/-- Settles O49: the exact conversions are of numbers that rounding does not change, the others round once,
and the integer of a mode is the one the model computes. -/
theorem conversionValues : Obligations.ConversionValues := by
  refine ⟨fun a n m h => ?_, fun n m hm => Fmt.convert_roundsTo (by decide) n hm,
    fun a => Fmt.ofInt_roundsTo (by decide) _, fun a => ?_, fun f g n => ⟨rfl, rfl, f.convert_zero g n⟩,
    fun f m => ⟨rfl, fun g => rfl⟩, fun f mode n m z => ?_⟩
  · obtain ⟨r, hr, hvalue⟩ := Fmt.value_convert (g := .double) (d := 925) (by decide) rfl (by decide)
      (by decide) h
    exact ⟨r, h ▸ hr, by rw [valueD_ofNat, hvalue, Fmt.rat_shift (f := .single) rfl]⟩
  · rw [valueD_ofNat]
    refine Fmt.rat_value_ofInt (by decide) (by decide) ((natAbs_toInt_le a).trans_lt ?_)
    exact (by decide : 2 ^ 31 < 2 * 2 ^ 52)
  · intro x htruncate hfloor hceiling hnearest
    rw [f.toWord_fin, Fmt.toInt_eq_of_namesInteger ⟨htruncate, hfloor, hceiling, hnearest⟩]
    refine ⟨fun hin => if_pos hin, fun hout => if_neg ?_⟩
    omega

end Sys2Proof.Machine
end

section
/-! The comparisons, conditional moves, conversions and raw transfers (45_fp_compare_convert.md): what each
shared form gives once its operands are written, and O45, O47, O48, O50 and O51. -/

namespace Sys2Proof.Machine

section

variable {i : Instr} {s : State} {fd fs ft : Fpr}

/-! ### Comparisons (R380) -/

theorem compareS_of_has (h : s.Advances) (hs : s.HasS fs) (ht : s.HasS ft) (p : FpVal → FpVal → Bool) :
    compareS i s p fs ft =
      .next { s with cc := ⟨p (valueS (s.patS fs)) (valueS (s.patS ft)), true⟩, pc := s.pc + 4#32 } := by
  rw [compareS, State.readS_of_has hs, State.readS_of_has ht]
  exact complete_ok i s _ h

theorem compareD_of_has (h : s.Advances) (hfs : fs ≠ 31) (hft : ft ≠ 31) (hs : s.HasD fs) (ht : s.HasD ft)
    (p : FpVal → FpVal → Bool) :
    compareD i s p fs ft =
      .next { s with cc := ⟨p (valueD (s.patD fs)) (valueD (s.patD ft)), true⟩, pc := s.pc + 4#32 } := by
  rw [compareD, checkDouble_of_ne fs hfs, checkDouble_of_ne ft hft, State.readD_of_has hs,
    State.readD_of_has ht]
  exact complete_ok i s _ h

/-! ### Unwritten sources (10_state.md R58) -/

theorem State.readS_of_not_has (h : ¬ s.HasS fs) : s.readS fs = .error (.trap (.unwrittenState (.fpr fs))) :=
  Marked.read_unwritten _ _ (Bool.not_eq_true _ ▸ h)

/-- Of a double one slot at least is unwritten, and the read names one that is. -/
theorem State.readD_of_not_has (h : ¬ s.HasD fs) :
    ∃ j, (j = fs ∨ j = fs + 1) ∧ s.readD fs = .error (.trap (.unwrittenState (.fpr j))) := by
  by_cases hlow : s.HasS fs
  · refine ⟨fs + 1, .inr rfl, ?_⟩
    rw [State.readD, State.readS_of_has hlow, State.readS_of_not_has fun hhigh => h ⟨hlow, hhigh⟩]
    rfl
  · refine ⟨fs, .inl rfl, ?_⟩
    rw [State.readD, State.readS_of_not_has hlow]
    rfl

/-! ### Conditional moves (R395 to R402) -/

theorem moveS_not_taken (h : s.Advances) :
    moveS i s (.ok false) fd fs = .next { s with pc := s.pc + 4#32 } :=
  complete_ok i s s h

theorem moveS_taken (h : s.Advances) (hs : s.HasS fs) :
    moveS i s (.ok true) fd fs = .next { s with fpr := slotsS s.fpr fd (s.patS fs), pc := s.pc + 4#32 } := by
  rw [moveS, State.copyS, State.readS_of_has hs]
  exact complete_writeS h _

theorem moveS_raises (hexec : exec i s = moveS i s (.ok true) fd fs) (hs : ¬ s.HasS fs) :
    Raises i s (.unwrittenState (.fpr fs)) := by
  refine raises_of_error hexec ?_
  rw [State.copyS, State.readS_of_not_has hs]
  rfl

theorem moveD_not_taken (h : s.Advances) (hfd : fd ≠ 31) (hfs : fs ≠ 31) :
    moveD i s (.ok false) fd fs = .next { s with pc := s.pc + 4#32 } := by
  rw [moveD, checkDouble_of_ne fd hfd, checkDouble_of_ne fs hfs]
  exact complete_ok i s s h

theorem moveD_taken (h : s.Advances) (hfd : fd ≠ 31) (hfs : fs ≠ 31) (hs : s.HasD fs) :
    moveD i s (.ok true) fd fs = .next { s with fpr := slotsD s.fpr fd (s.patD fs), pc := s.pc + 4#32 } := by
  rw [moveD, checkDouble_of_ne fd hfd, checkDouble_of_ne fs hfs, State.copyD, State.readD_of_has hs]
  exact complete_writeD h _

theorem moveD_raises (hexec : exec i s = moveD i s (.ok true) fd fs) (hfd : fd ≠ 31) (hfs : fs ≠ 31)
    (hs : ¬ s.HasD fs) : ∃ j, (j = fs ∨ j = fs + 1) ∧ Raises i s (.unwrittenState (.fpr j)) := by
  obtain ⟨j, hj, hread⟩ := State.readD_of_not_has hs
  refine ⟨j, hj, raises_of_error hexec ?_⟩
  rw [checkDouble_of_ne fd hfd, checkDouble_of_ne fs hfs, State.copyD, hread]
  rfl

/-! ### Conversions (R403 to R417) -/

/-- A conversion to a word is an operation on the pattern: it checks and reads the same. -/
theorem toWordS_of_has (h : s.Advances) (hs : s.HasS fs) (op : ToWordOp) (mode : WordRounding) :
    toWordS i s op mode fd fs =
      .next { s with fpr := slotsS s.fpr fd (wordOfS op mode (s.patS fs)), pc := s.pc + 4#32 } :=
  patternS_of_has h hs (wordOfS op mode)

theorem toWordD_of_has (h : s.Advances) (hfs : fs ≠ 31) (hs : s.HasD fs) (op : ToWordOp)
    (mode : WordRounding) :
    toWordD i s op mode fd fs =
      .next { s with fpr := slotsS s.fpr fd (wordOfD op mode (s.patD fs)), pc := s.pc + 4#32 } := by
  rw [toWordD, checkDouble_of_ne fs hfs, State.readD_of_has hs]
  exact complete_writeS h _

theorem State.checkRoundMode_of_settable (h : s.emb.roundModeSettable = true) : s.checkRoundMode = .ok () :=
  if_pos h

/-- Where its mode can be selected, round.w is a conversion like the others. -/
theorem execRoundWS_of_settable (hmode : s.emb.roundModeSettable = true) :
    execRoundWS fd fs s = toWordS (.roundWS fd fs) s .roundWS .nearestEven fd fs := by
  rw [execRoundWS, State.checkRoundMode_of_settable hmode]
  rfl

theorem execRoundWD_of_settable (hmode : s.emb.roundModeSettable = true) :
    execRoundWD fd fs s = toWordD (.roundWD fd fs) s .roundWD .nearestEven fd fs := by
  rw [execRoundWD, State.checkRoundMode_of_settable hmode]
  rfl

end

/-! ### The overlay of doubles on slots (R424, 10_state.md R50 to R52) -/

section

variable (s : State) (j : Fpr) (v : DWord) (w : Word)

/-- The two slots of a double are not one. -/
theorem add_one_ne_self : j + 1 ≠ j := by simp

theorem State.readS_of_slot {s : State} {j : Fpr} {w : Word} (h : s.fpr[j] = .wrote w) : s.readS j = .ok w := by
  rw [State.readS, h]
  rfl

theorem State.readD_of_slots {s : State} {j : Fpr} {lo hi : Word} (hlo : s.fpr[j] = .wrote lo)
    (hhi : s.fpr[j + 1] = .wrote hi) : s.readD j = .ok (hi ++ lo) := by
  rw [State.readD, State.readS_of_slot hlo, State.readS_of_slot hhi]
  rfl

theorem State.writeD_low : (s.writeD j v).fpr[j] = .wrote (v.extractLsb' 0 32) :=
  (fpr_set_ne _ _ _ _ (add_one_ne_self j).symm).trans (Vector.getElem_set_self _)

theorem State.writeD_high : (s.writeD j v).fpr[j + 1] = .wrote (v.extractLsb' 32 32) :=
  Vector.getElem_set_self _

theorem State.writeD_other {k : Fpr} (hlow : k ≠ j) (hhigh : k ≠ j + 1) :
    (s.writeD j v).fpr[k] = s.fpr[k] :=
  (fpr_set_ne _ _ _ _ hhigh).trans (fpr_set_ne _ _ _ _ hlow)

theorem State.writeS_self : (s.writeS j w).fpr[j] = .wrote w := Vector.getElem_set_self _

theorem State.writeS_other {k : Fpr} (h : k ≠ j) : (s.writeS j w).fpr[k] = s.fpr[k] :=
  fpr_set_ne _ _ _ _ h

/-- A single written over the high half leaves the low one. -/
theorem State.writeD_writeS_low :
    ((s.writeD j v).writeS (j + 1) w).fpr[j] = .wrote (v.extractLsb' 0 32) :=
  (State.writeS_other _ _ _ (add_one_ne_self j).symm).trans (s.writeD_low j v)

end

/-- Settles O45: each instruction is a shared form, on singles or on doubles. -/
theorem comparisons : Obligations.Comparisons := by
  refine fun s fs ft h => ⟨fun hs ht => ?_, fun hfs hft hs ht => ?_⟩
  · have hcompare {i : Instr} := compareS_of_has (i := i) h hs ht
    exact ⟨hcompare _, hcompare _, hcompare _, hcompare _, hcompare _, hcompare _, hcompare _⟩
  · have hcompare {i : Instr} := compareD_of_has (i := i) h hfs hft hs ht
    exact ⟨hcompare _, hcompare _, hcompare _, hcompare _, hcompare _, hcompare _, hcompare _⟩

/-- Settles O47: each pair of moves has one guard, which is there once cc is written, and the guard decides. -/
theorem slotConditionalMoves : Obligations.SlotConditionalMoves := by
  intro s fd fs rt single double taken hmoves
  obtain ⟨guard, hguard, hsingle, hdouble⟩ : ∃ guard : Bool, (taken ↔ guard = true) ∧
      exec single s = moveS single s (.ok guard) fd fs ∧ exec double s = moveD double s (.ok guard) fd fs := by
    rcases hmoves with ⟨rfl, rfl, ht⟩ | ⟨rfl, rfl, ht⟩ | ⟨rfl, rfl, hcc, ht⟩ | ⟨rfl, rfl, hcc, ht⟩
    · exact ⟨_, ht.trans decide_eq_true_iff.symm, rfl, rfl⟩
    · exact ⟨_, ht.trans decide_eq_true_iff.symm, rfl, rfl⟩
    · have hread := State.readCc_written s hcc
      exact ⟨s.cc.val, ht, by rw [← hread]; rfl, by rw [← hread]; rfl⟩
    · have hread : s.readCc.map not = .ok !s.cc.val := by rw [State.readCc_written s hcc]; rfl
      exact ⟨!s.cc.val, by rw [ht, Bool.not_eq_true'], by rw [← hread]; rfl, by rw [← hread]; rfl⟩
  rw [hsingle, hdouble, hguard, Bool.not_eq_true]
  refine ⟨?_, ?_, ?_, fun hfd hfs => ⟨?_, ?_, ?_⟩⟩
  · rintro h rfl
    exact moveS_not_taken h
  · rintro h rfl hs
    exact moveS_taken h hs
  · rintro rfl hs
    exact moveS_raises hsingle hs
  · rintro h rfl
    exact moveD_not_taken h hfd hfs
  · rintro h rfl hs
    exact moveD_taken h hfd hfs hs
  · rintro rfl hs
    exact moveD_raises hdouble hfd hfs hs

/-- Settles O48: past its checks each conversion reads one operand and writes one destination. -/
theorem conversions : Obligations.Conversions := by
  refine fun s fd fs h => ⟨fun hs => ?_, fun hfs hs => ?_⟩
  · have hread := State.readS_of_has hs
    have hword {i : Instr} := toWordS_of_has (i := i) (fd := fd) h hs
    refine ⟨fun hfd => ?_, ?_, fun hfd => ?_, hword _ _, fun hmode => ?_, hword _ _, hword _ _, hword _ _⟩
    · simp only [exec, execCvtDS, checkDouble_of_ne fd hfd, hread, Attempt.ok_bind]
      exact complete_writeD h _
    · exact patternS_of_has h hs fun a => BitVec.ofNat 32 (Fmt.single.ofInt a.toInt)
    · simp only [exec, execCvtDW, checkDouble_of_ne fd hfd, hread, Attempt.ok_bind]
      exact complete_writeD h _
    · exact (execRoundWS_of_settable hmode).trans (hword _ _)
  · have hword {i : Instr} := toWordD_of_has (i := i) (fd := fd) h hfs hs
    refine ⟨?_, hword _ _, fun hmode => ?_, hword _ _, hword _ _, hword _ _⟩
    · simp only [exec, execCvtSD, checkDouble_of_ne fs hfs, State.readD_of_has hs, Attempt.ok_bind]
      exact complete_writeS h _
    · exact (execRoundWD_of_settable hmode).trans (hword _ _)

/-- Settles O50: one slot read, or one written. -/
theorem rawTransfers : Obligations.RawTransfers := by
  refine fun s rt fs => ⟨fun h hs => ?_, fun hs => ?_, fun h => complete_writeS h _, rfl, rfl⟩
  · simp only [exec, execMfc1, State.readS_of_has hs, Attempt.ok_bind]
    exact complete_writeGpr h rfl
  · exact raises_of_error rfl (by rw [State.readS_of_not_has hs]; rfl)

/-- Settles O51: what each write leaves in the two slots, and transfers of one slot. -/
theorem halvesAndOverlay : Obligations.HalvesAndOverlay := by
  refine fun s rt fs v w => ⟨fun _ => ⟨?_, ?_, ?_, fun j hlow hhigh => s.writeD_other fs v hlow hhigh⟩,
    fun h => ⟨fun hfs hs => ?_, fun hs => ?_, fun hfs => ?_, complete_writeS h _⟩⟩
  · rw [State.readD_of_slots (s.writeD_low fs v) (s.writeD_high fs v)]
    exact congrArg Except.ok (highWord_append_lowWord v)
  · exact State.readD_of_slots (s.writeD_writeS_low fs v w) (State.writeS_self _ _ w)
  · exact State.readS_of_slot (s.writeD_writeS_low fs v w)
  · simp only [exec, execMfhc1, checkDouble_of_ne fs hfs, State.readS_of_has hs, Attempt.ok_bind]
    exact complete_writeGpr h rfl
  · simp only [exec, execMflc1, State.readS_of_has hs, Attempt.ok_bind]
    exact complete_writeGpr h rfl
  · simp only [exec, execMthc1, checkDouble_of_ne fs hfs, Attempt.ok_bind]
    exact complete_writeS h _

end Sys2Proof.Machine
end

section
/-! The aligned loads and stores (46_loadstore.md): the order of their checks, the requests to memory, what a
store leaves there, and O53, O54, O56 and O57. -/

namespace Sys2Proof.Machine

/-! ### Checks and reads in sequence -/

section

variable {α β : Type} {a : Attempt α} {k : α → Attempt β}

/-- A sequence goes on from the value its first attempt gives. -/
theorem Attempt.bind_of_ok {v : α} {r : Attempt β} (ha : a = .ok v) (hk : k v = r) : (a >>= k) = r := by
  subst ha
  exact hk

/-- A sequence stops where its first attempt does. -/
theorem Attempt.bind_of_error {e : Stop} (ha : a = .error e) : (a >>= k) = .error e := by
  subst ha
  rfl

end

section

variable {i : Instr} {s t : State} {ea : Word} {a : Attempt State}

/-- Past its checks an instruction is the completion of its writes. -/
theorem exec_of_ok {u : State} (he : exec i s = complete i s a) (ha : a = .ok u) :
    exec i s = complete i s (.ok u) := ha ▸ he

/-- A request outside what the port admits has no next state (60_exceptions.md R496). -/
theorem exec_stuck (he : exec i s = complete i s a) (ha : a = .error (.stuck ea)) :
    exec i s = .fault (.stuckAccess ea) := by
  rw [he, ha]
  rfl

/-- An instruction that leaves the machine running is past its checks, with its writes done. -/
theorem ok_of_complete_running (h : complete i s a = .next t) (hrun : t.status = .running) :
    ∃ u, a = .ok u ∧ t = { u with pc := s.pc + 4#32 } := by
  obtain ⟨tr, rfl⟩ | ⟨u, hu, -, ht⟩ := complete_next h
  · cases hrun
  · exact ⟨u, hu, ht⟩

/-! ### Requests to memory (20_memory.md R102) -/

theorem State.checkAdmitted_of_admits {n : Nat} (h : s.Admits ea n) : s.checkAdmitted ea n = .ok () :=
  s.checkAdmitted_ok ea n ((s.admitsRun_iff ea n).2 h)

theorem State.checkAdmitted_stuck {n : Nat} (h : ¬ s.Admits ea n) :
    s.checkAdmitted ea n = .error (.stuck ea) :=
  if_neg (mt (s.admitsRun_iff ea n).1 h)

/-- A run is admitted when both its parts are. -/
theorem State.admits_add_iff {n m : Nat} :
    s.Admits ea (n + m) ↔ s.Admits ea n ∧ s.Admits (ea + BitVec.ofNat 32 n) m := by
  simp only [State.Admits, add_ofNat_add_ofNat]
  constructor
  · exact fun h => ⟨fun k hk => h k (by omega), fun k hk => h (n + k) (by omega)⟩
  · rintro ⟨hlow, hhigh⟩ k hk
    by_cases hkn : k < n
    · exact hlow k hkn
    · obtain ⟨j, rfl⟩ := Nat.exists_eq_add_of_le (Nat.le_of_not_lt hkn)
      exact hhigh j (by omega)

theorem State.loadByte_ok_of_admits (h : s.Admits ea 1) : s.loadByte ea = .ok (s.byteAt ea) :=
  s.loadByte_ok ea ((s.admitsRun_iff ea 1).2 h)

theorem State.loadHalf_ok_of_admits (h : s.Admits ea 2) : s.loadHalf ea = .ok (s.halfAt ea) :=
  s.loadHalf_ok ea ((s.admitsRun_iff ea 2).2 h)

theorem State.storeByte_ok_of_admits (h : s.Admits ea 1) (v : Byte) :
    s.storeByte ea v = .ok (s.putBytes ea [v]) :=
  s.storeByte_ok ea v ((s.admitsRun_iff ea 1).2 h)

theorem State.storeHalf_ok_of_admits (h : s.Admits ea 2) (v : Half) :
    s.storeHalf ea v = .ok (s.putBytes ea (bytesOfHalf v)) :=
  s.storeHalf_ok ea v ((s.admitsRun_iff ea 2).2 h)

theorem State.storeWord_ok_of_admits (h : s.Admits ea 4) (v : Word) :
    s.storeWord ea v = .ok (s.putBytes ea (bytesOfWord v)) :=
  s.storeWord_ok ea v ((s.admitsRun_iff ea 4).2 h)

/-- The request for a double is one for each of its words (R457, R459). -/
theorem State.admits_double_iff : s.Admits ea 8 ↔ s.Admits ea 4 ∧ s.Admits (ea + 4#32) 4 :=
  State.admits_add_iff (n := 4) (m := 4)

/-- A double that is not admitted stops at its first word or at its second. -/
theorem State.not_admits_double (h : ¬ s.Admits ea 8) :
    ¬ s.Admits ea 4 ∨ s.Admits ea 4 ∧ ¬ s.Admits (ea + 4#32) 4 := by
  by_cases hhi : s.Admits ea 4
  · exact .inr ⟨hhi, fun hlo => h (State.admits_double_iff.2 ⟨hhi, hlo⟩)⟩
  · exact .inl hhi

/-! ### Loads (R442 to R446, R454, R456, R457) -/

/-- A load into a general register, with the loaded value in any spelling of it. -/
theorem load_completes (h : s.Advances) (he : exec i s = complete i s a) {r : Gpr} {v w : Word}
    (ha : a = .ok (s.writeGpr r v)) (hv : v = w) :
    exec i s = .next { s with gpr := s.gpr.set r w, pc := s.pc + 4#32 } :=
  (exec_of_ok he ha).trans (complete_writeGpr h hv)

end

section

open Attempt (bind_of_ok bind_of_error)

/-- Settles O53: the one check of a byte load is the admission of its byte. -/
theorem byteLoads : Obligations.ByteLoads := by
  intro s rt rs imm ea
  refine ⟨fun h hadm => ?_, fun hadm => ?_, rfl, rfl⟩
  · have hload := State.loadByte_ok_of_admits hadm
    exact ⟨load_completes h rfl (bind_of_ok hload rfl) rfl,
      load_completes h rfl (bind_of_ok hload rfl) (BitVec.setWidth_eq_append (by decide))⟩
  · have hload : s.loadByte ea = .error (.stuck ea) := bind_of_error (State.checkAdmitted_stuck hadm)
    exact ⟨exec_stuck rfl (bind_of_error hload), exec_stuck rfl (bind_of_error hload)⟩

/-- Settles O54: an aligned address passes the first check and an admitted one the second. -/
theorem alignedLoads : Obligations.AlignedLoads := by
  intro s rt rs ft imm h ea half
  refine ⟨fun hal hadm => ?_, fun hal hadm => ?_, fun hft hal hadm => ?_⟩
  · have hal := checkAligned_ok ea 2 hal
    have hload : s.loadHalf ea = .ok half := State.loadHalf_ok_of_admits hadm
    exact ⟨load_completes h rfl (bind_of_ok hal (bind_of_ok hload rfl)) rfl,
      load_completes h rfl (bind_of_ok hal (bind_of_ok hload rfl)) (setWidth_half half)⟩
  · have hal := checkAligned_ok ea 4 hal
    have hload : s.loadWord ea = .ok (s.wordOf ea) := State.loadWord_ok_of_admits hadm
    exact ⟨load_completes h rfl (bind_of_ok hal (bind_of_ok hload rfl)) rfl,
      load_completes h rfl (bind_of_ok hal (bind_of_ok hload rfl)) rfl,
      (exec_of_ok rfl (bind_of_ok hal (bind_of_ok hload rfl))).trans (complete_writeS h _)⟩
  · obtain ⟨hhi, hlo⟩ := State.admits_double_iff.1 hadm
    exact (exec_of_ok rfl (bind_of_ok (checkDouble_of_ne ft hft) (bind_of_ok (checkAligned_ok ea 4 hal)
      (bind_of_ok (State.loadWord_ok_of_admits hhi)
        (bind_of_ok (State.loadWord_ok_of_admits hlo) rfl))))).trans (complete_writeD h _)

/-! ### Stores (R449 to R451, R455, R458, R459) -/

/-- Bytes put in two runs, one after the other, are put in one. -/
theorem Memory.writeBytes_append (m : Memory) (a : Word) (l l' : List Byte) :
    (m.writeBytes a l).writeBytes (a + BitVec.ofNat 32 l.length) l' = m.writeBytes a (l ++ l') := by
  induction l generalizing m a with
  | nil => simp [Memory.writeBytes]
  | cons v l ih =>
    rw [List.length_cons, Nat.add_comm, ← add_ofNat_add_ofNat]
    exact ih (m.write a.toNat v) (a + 1#32)

/-- The same for the addresses they mark. -/
theorem AddrSet.insertRun_add (l : AddrSet) (a : Word) (n m : Nat) :
    (l.insertRun a n).insertRun (a + BitVec.ofNat 32 n) m = l.insertRun a (n + m) := by
  induction n generalizing l a with
  | zero => simp [AddrSet.insertRun]
  | succ n ih =>
    rw [Nat.add_right_comm, Nat.add_comm n 1, ← add_ofNat_add_ofNat, Nat.add_comm 1 n]
    exact ih (l.insert a.toNat) (a + 1#32)

theorem State.putBytes_append (s : State) (a : Word) (l l' : List Byte) :
    (s.putBytes a l).putBytes (a + BitVec.ofNat 32 l.length) l' = s.putBytes a (l ++ l') := by
  unfold State.putBytes
  rw [Memory.writeBytes_append, AddrSet.insertRun_add, List.length_append]

/-- The offset from an address to one `k` above it. -/
theorem toNat_add_ofNat_sub {k : Nat} (hk : k < 2 ^ 32) (a : Word) :
    (a + BitVec.ofNat 32 k - a).toNat = k := by
  rw [add_sub_cancel_left, BitVec.toNat_ofNat, Nat.mod_eq_of_lt hk]

/-- Bytes put for a store of the run are stored there, whether or not the addresses wrap. -/
theorem storesBytes_of_put {s t : State} {a : Word} {l : List Byte} (hm : s.mem.wf)
    (hl : l.length ≤ 2 ^ 32) (hmem : t.mem = (s.putBytes a l).mem)
    (hstored : t.stored = (s.putBytes a l).stored) : StoresBytes s t a l where
  inside k hk := by
    have hoff := toNat_add_ofNat_sub (hk.trans_le hl) a
    rw [State.byteAt, hmem]
    refine (State.byteAt_putBytes s a _ l hm hl).trans ?_
    simp only [hoff, hk, dite_true]
  outside b hb := by
    rw [State.byteAt, hmem]
    exact Memory.read_writeBytes_of_ne hb
  marks n := by
    rw [hstored]
    exact AddrSet.mem_insertRun s.stored a l.length n

/-- A store, with its bytes in any spelling. -/
theorem store_completes {i : Instr} {s : State} {ea : Word} {a : Attempt State} (h : s.Advances)
    (hm : s.mem.wf) (he : exec i s = complete i s a) {l l' : List Byte}
    (ha : a = .ok (s.putBytes ea l)) (hl : l = l')
    (hlen : l'.length ≤ 2 ^ 32 := by simp [wordBytes]) :
    ∃ t : State, exec i s = .next t ∧ StoresBytes s t ea l' ∧
      t = { s with mem := t.mem, stored := t.stored, pc := s.pc + 4#32 } := by
  subst hl
  exact ⟨_, (exec_of_ok he ha).trans (complete_ok i s _ h), storesBytes_of_put hm hlen rfl rfl, rfl⟩

theorem bytesOfHalf_low (v : Word) :
    bytesOfHalf (v.extractLsb' 0 16) = [v.extractLsb' 8 8, v.extractLsb' 0 8] := by
  rw [bytesOfHalf, BitVec.extractLsb'_extractLsb'_of_le (by decide),
    BitVec.extractLsb'_extractLsb'_of_le (by decide)]

/-- Settles O56: past its checks each instruction puts its bytes, and the two words of sdc1 are put as one
run. -/
theorem stores : Obligations.Stores := by
  intro s rt rs ft imm h hm ea v
  refine ⟨fun hadm => ?_, fun hal hadm => ?_, fun hal hadm => ?_, fun hft hD hal hadm => ?_⟩
  · exact store_completes h hm rfl (State.storeByte_ok_of_admits hadm _) rfl
  · exact store_completes h hm rfl
      (bind_of_ok (checkAligned_ok ea 2 hal) (State.storeHalf_ok_of_admits hadm _)) (bytesOfHalf_low v)
  · have hal := checkAligned_ok ea 4 hal
    have hstore := State.storeWord_ok_of_admits hadm
    refine ⟨store_completes h hm rfl (bind_of_ok hal (hstore v)) rfl, ?_, fun hS =>
      store_completes h hm rfl (bind_of_ok (State.readS_of_has hS) (bind_of_ok hal (hstore _))) rfl⟩
    exact ⟨_, (exec_of_ok rfl (bind_of_ok hal (bind_of_ok (hstore v) rfl))).trans (complete_ok _ s _ h),
      storesBytes_of_put hm (by simp [wordBytes]) rfl rfl, rfl⟩
  · obtain ⟨hhi, hlo⟩ := State.admits_double_iff.1 hadm
    refine store_completes h hm rfl
      (l := bytesOfWord (highWord (s.patD ft)) ++ bytesOfWord (lowWord (s.patD ft)))
      (bind_of_ok (checkDouble_of_ne ft hft) (bind_of_ok (State.readD_of_has hD)
        (bind_of_ok (checkAligned_ok ea 4 hal) (bind_of_ok (State.checkAdmitted_of_admits hhi)
          (bind_of_ok (State.checkAdmitted_of_admits hlo) ?_))))) ?_
    · exact congrArg Except.ok (s.putBytes_append ea (bytesOfWord _) _)
    · rw [highWord, lowWord, State.patD, BitVec.extractLsb'_append_eq_left,
        BitVec.extractLsb'_append_eq_right]
      rfl

/-! ### The order of the checks (R441, 60_exceptions.md R497) -/

section

variable {i : Instr} {s : State}

theorem checkDouble_of_not_mem {j : Fpr} (h : (31 : Fpr) ∉ [j]) : checkDouble j = .ok () :=
  checkDouble_of_ne j fun hj => h (List.mem_singleton.2 hj.symm)

theorem State.hasD_of_marks {ft : Fpr}
    (h : ∀ m ∈ [MarkedReg.fpr ft, .fpr (ft + 1)], s.isWritten m = true) : s.HasD ft := by
  simpa [State.isWritten, State.HasD] using h

/-- Past its operand checks, an instruction that needs an aligned address checks it (R487). -/
theorem raises_of_misaligned {a : Word} {n : Nat} (hdouble : (31 : Fpr) ∉ i.doubleIndices)
    (hmarks : ∀ m ∈ i.markedReads, s.isWritten m = true) (ha : i.alignedAccess s = some (a, n))
    (hmis : a.toNat % n ≠ 0) : Raises i s (.misalignedAccess a) := by
  cases i with
  | ldh | ldhu | ldw | ll | lwc1 | sth | stw | sc =>
    cases ha
    exact raises_of_error rfl (bind_of_error (checkAligned_error _ _ hmis))
  | ldc1 ft =>
    cases ha
    have hft := checkDouble_of_not_mem hdouble
    exact raises_of_error rfl (bind_of_ok hft (bind_of_error (checkAligned_error _ _ hmis)))
  | swc1 ft =>
    cases ha
    have hS : s.HasS ft := hmarks (.fpr ft) List.mem_cons_self
    exact raises_of_error rfl (bind_of_ok (State.readS_of_has hS)
      (bind_of_error (checkAligned_error _ _ hmis)))
  | sdc1 ft =>
    cases ha
    have hft := checkDouble_of_not_mem hdouble
    have hread := State.readD_of_has (State.hasD_of_marks hmarks)
    exact raises_of_error rfl (bind_of_ok hft (bind_of_ok hread
      (bind_of_error (checkAligned_error _ _ hmis))))
  | ijmp rs imm =>
    cases ha
    obtain ⟨-, hraises, -⟩ := tableJump s rs imm
    exact hraises (hmarks .ijmpreg List.mem_cons_self) hmis
  | _ => cases ha

/-- Past the alignment check, an instruction makes its requests, and the first that is not admitted stops it
(R496). -/
theorem stuck_of_not_admits (hdouble : (31 : Fpr) ∉ i.doubleIndices)
    (hmarks : ∀ m ∈ i.markedReads, s.isWritten m = true)
    (hal : ∀ (a : Word) (n : Nat), i.alignedAccess s = some (a, n) → a.toNat % n = 0)
    (hadm : ¬ s.Admits (i.accessRun s).1 (i.accessRun s).2) :
    ∃ a : Word, exec i s = .fault (.stuckAccess a) := by
  have hstuck := State.checkAdmitted_stuck hadm
  cases i with
  | stb => exact ⟨_, exec_stuck rfl (bind_of_error hstuck)⟩
  | ldb | ldbu | ldwl | ldwr | stwl | stwr =>
    exact ⟨_, exec_stuck rfl (bind_of_error (bind_of_error hstuck))⟩
  | sth | stw =>
    have hal := checkAligned_ok _ _ (hal _ _ rfl)
    exact ⟨_, exec_stuck rfl (bind_of_ok hal (bind_of_error hstuck))⟩
  | ldh | ldhu | ldw | ll | lwc1 | sc =>
    have hal := checkAligned_ok _ _ (hal _ _ rfl)
    exact ⟨_, exec_stuck rfl (bind_of_ok hal (bind_of_error (bind_of_error hstuck)))⟩
  | swc1 ft =>
    have hal := checkAligned_ok _ _ (hal _ _ rfl)
    have hS : s.HasS ft := hmarks (.fpr ft) List.mem_cons_self
    exact ⟨_, exec_stuck rfl (bind_of_ok (State.readS_of_has hS)
      (bind_of_ok hal (bind_of_error hstuck)))⟩
  | ldc1 ft imm rs =>
    have hft := checkDouble_of_not_mem hdouble
    have hal := checkAligned_ok _ _ (hal _ _ rfl)
    obtain hhi | ⟨hhi, hlo⟩ := State.not_admits_double hadm
    · exact ⟨_, exec_stuck rfl (bind_of_ok hft (bind_of_ok hal
        (bind_of_error (State.loadWord_stuck hhi))))⟩
    · exact ⟨_, exec_stuck rfl (bind_of_ok hft (bind_of_ok hal
        (bind_of_ok (State.loadWord_ok_of_admits hhi) (bind_of_error (State.loadWord_stuck hlo)))))⟩
  | sdc1 ft imm rs =>
    have hft := checkDouble_of_not_mem hdouble
    have hread := State.readD_of_has (State.hasD_of_marks hmarks)
    have hal := checkAligned_ok _ _ (hal _ _ rfl)
    obtain hhi | ⟨hhi, hlo⟩ := State.not_admits_double hadm
    · exact ⟨_, exec_stuck rfl (bind_of_ok hft (bind_of_ok hread (bind_of_ok hal
        (bind_of_error (State.checkAdmitted_stuck hhi)))))⟩
    · exact ⟨_, exec_stuck rfl (bind_of_ok hft (bind_of_ok hread (bind_of_ok hal
        (bind_of_ok (State.checkAdmitted_of_admits hhi)
          (bind_of_error (State.checkAdmitted_stuck hlo))))))⟩
  | ijmp rs imm =>
    obtain ⟨-, -, hfault, -⟩ := tableJump s rs imm
    exact ⟨_, hfault (hmarks .ijmpreg List.mem_cons_self) (hal _ _ rfl) hadm⟩
  | _ => exact absurd (fun k hk => absurd hk k.not_lt_zero) hadm

end



/-- Settles O57: the operand checks pass by hypothesis, so alignment and then admission decide. -/
theorem dataAccessChecks : Obligations.DataAccessChecks := fun _ _ hdouble hmarks =>
  ⟨fun _ _ => raises_of_misaligned hdouble hmarks, stuck_of_not_admits hdouble hmarks⟩

end

end Sys2Proof.Machine
end

section
/-! The unaligned loads and stores (46_loadstore.md R447, R448, R452, R453, R460, R461): their merges, bit by
bit and byte by byte, and O55 and O58. -/

namespace Sys2Proof.Machine

/-! ### Bytes of words -/

/-- The byte of a word that stands at offset `j` in memory (20_memory.md R103). -/
def byteOf (w : Word) (j : Nat) : Byte := w.extractLsb' (8 * (3 - j)) 8

theorem getLsbD_byteOf (w : Word) (j k : Nat) :
    (byteOf w j).getLsbD k = (decide (k < 8) && w.getLsbD (8 * (3 - j) + k)) :=
  BitVec.getLsbD_extractLsb' ..

theorem getElem_bytesOfWord (w : Word) {j : Nat} (hj : j < (bytesOfWord w).length) :
    (bytesOfWord w)[j] = byteOf w j := by
  have hj4 : j < 4 := hj
  interval_cases j <;> rfl

/-- A word is read where its four bytes stand. -/
theorem State.wordOf_eq_iff {s : State} {a w : Word} :
    s.wordOf a = w ↔ ∀ j < 4, s.byteAt (a + BitVec.ofNat 32 j) = byteOf w j := by
  rw [State.wordOf, append_eq_iff]
  simp only [extract_eq_append_iff]
  constructor
  · rintro ⟨⟨⟨h0, h1⟩, h2⟩, h3⟩ j hj
    interval_cases j
    · rw [BitVec.add_zero]
      exact h0.symm
    · exact h1.symm
    · exact h2.symm
    · exact h3.symm
  · intro h
    have h0 := h 0 (by decide)
    rw [BitVec.add_zero] at h0
    exact ⟨⟨⟨h0.symm, (h 1 (by decide)).symm⟩, (h 2 (by decide)).symm⟩, (h 3 (by decide)).symm⟩

/-! ### Shifted words over others -/

/-- `x` shifted down by `sh`, and the upper bits of `m` over it: the merge of ldwr and stwl. -/
def mergeDown (sh : Nat) (x m : Word) : Word := (x >>> sh) ||| (m &&& ~~~(0xFFFFFFFF#32 >>> sh))

/-- `x` shifted up by `sh`, and the lower bits of `m` under it: the merge of ldwl and stwr. -/
def mergeUp (sh : Nat) (x m : Word) : Word := (x <<< sh) ||| (m &&& lowMask sh)

theorem getLsbD_mergeDown (x m : Word) {sh k : Nat} (hk : k < 32) :
    (mergeDown sh x m).getLsbD k = if sh + k < 32 then x.getLsbD (sh + k) else m.getLsbD k := by
  have hmask : (0xFFFFFFFF#32).getLsbD (sh + k) = decide (sh + k < 32) := BitVec.getLsbD_allOnes
  rw [mergeDown, BitVec.getLsbD_or, BitVec.getLsbD_and, BitVec.getLsbD_not,
    BitVec.getLsbD_ushiftRight, BitVec.getLsbD_ushiftRight, hmask]
  split_ifs with h
  · simp [h]
  · simp [h, hk, BitVec.getLsbD_of_ge _ _ (Nat.le_of_not_lt h)]

theorem getLsbD_mergeUp (x m : Word) {sh k : Nat} (hk : k < 32) :
    (mergeUp sh x m).getLsbD k = if k < sh then m.getLsbD k else x.getLsbD (k - sh) := by
  have hmask : (lowMask sh).getLsbD k = decide (k < sh) := by
    rw [lowMask, BitVec.getLsbD_ofNat, Nat.testBit_two_pow_sub_one, decide_eq_true hk, Bool.true_and]
  rw [mergeUp, BitVec.getLsbD_or, BitVec.getLsbD_and, BitVec.getLsbD_shiftLeft, hmask]
  split_ifs with h <;> simp [h, hk]

/-- A shift down by `n` bytes moves each byte `n` places towards higher addresses. -/
theorem byteOf_mergeDown (x m : Word) (n : Nat) {j : Nat} (hj : j < 4) :
    byteOf (mergeDown (n * 8) x m) j = if n ≤ j then byteOf x (j - n) else byteOf m j := by
  refine BitVec.eq_of_getLsbD_eq fun k hk => ?_
  rw [getLsbD_byteOf, getLsbD_mergeDown _ _ (by omega), apply_ite (BitVec.getLsbD · k),
    getLsbD_byteOf, getLsbD_byteOf]
  have hmove : n * 8 + (8 * (3 - j) + k) < 32 ↔ n ≤ j := by omega
  simp only [hmove]
  split_ifs with h
  · have hindex : n * 8 + (8 * (3 - j) + k) = 8 * (3 - (j - n)) + k := by omega
    rw [hindex]
  · rfl

/-- And a shift up by `n` bytes towards lower ones. -/
theorem byteOf_mergeUp (x m : Word) (n : Nat) {j : Nat} (hj : j < 4) :
    byteOf (mergeUp (n * 8) x m) j = if j + n < 4 then byteOf x (j + n) else byteOf m j := by
  refine BitVec.eq_of_getLsbD_eq fun k hk => ?_
  rw [getLsbD_byteOf, getLsbD_mergeUp _ _ (by omega), apply_ite (BitVec.getLsbD · k),
    getLsbD_byteOf, getLsbD_byteOf]
  have hstay : 8 * (3 - j) + k < n * 8 ↔ ¬ j + n < 4 := by omega
  simp only [hstay, ite_not]
  split_ifs with h
  · have hindex : 8 * (3 - j) + k - n * 8 = 8 * (3 - (j + n)) + k := by omega
    rw [hindex]
  · rfl

/-! ### The aligned word and its merges -/

theorem toNat_and_three (ea : Word) : (ea &&& 3#32).toNat = ea.toNat % 4 :=
  (BitVec.toNat_and ea 3#32).trans (Nat.and_two_pow_sub_one_eq_mod ea.toNat 2)

/-- The mask of the aligned word and that of the offset in it keep every bit between them. -/
theorem alignedWord_add (ea : Word) : alignedWord ea + BitVec.ofNat 32 (ea.toNat % 4) = ea := by
  have hlow : BitVec.ofNat 32 (ea.toNat % 4) = ea &&& 3#32 := by
    rw [← toNat_and_three, BitVec.ofNat_toNat, BitVec.setWidth_eq]
  have hdisjoint : alignedWord ea &&& (ea &&& 3#32) = 0#32 := by
    rw [alignedWord, BitVec.and_comm ea 3#32, BitVec.and_assoc, ← BitVec.and_assoc 0xFFFFFFFC#32]
    exact (congrArg (ea &&& ·) BitVec.zero_and).trans BitVec.and_zero
  rw [hlow, BitVec.add_eq_or_of_and_eq_zero _ _ hdisjoint, alignedWord, ← BitVec.and_or_distrib_left]
  exact BitVec.and_allOnes

theorem leftShift_eq (ea : Word) : leftShift ea = ea.toNat % 4 * 8 := by rw [leftShift, toNat_and_three]

theorem rightShift_eq (ea : Word) : rightShift ea = (3 - ea.toNat % 4) * 8 := by
  rw [rightShift, toNat_and_three]

theorem mergeLoadLeft_eq (ea x m : Word) : mergeLoadLeft ea x m = mergeUp (ea.toNat % 4 * 8) x m := by
  rw [← leftShift_eq]
  rfl

theorem mergeLoadRight_eq (ea x m : Word) :
    mergeLoadRight ea x m = mergeDown ((3 - ea.toNat % 4) * 8) x m := by
  rw [← rightShift_eq]
  rfl

theorem mergeStoreLeft_eq (ea x m : Word) : mergeStoreLeft ea x m = mergeDown (ea.toNat % 4 * 8) x m := by
  rw [← leftShift_eq]
  rfl

theorem mergeStoreRight_eq (ea x m : Word) :
    mergeStoreRight ea x m = mergeUp ((3 - ea.toNat % 4) * 8) x m := by
  rw [← rightShift_eq]
  rfl

/-- Settles O55: each access reads the aligned word and merges it, by the shifts of `ea` modulo 4. -/
theorem unalignedAccess : Obligations.UnalignedAccess := by
  intro s rt rs imm h ea a l r m v hadm
  have hload : s.loadWord (alignedWord ea) = .ok m := State.loadWord_ok_of_admits hadm
  have hstore := State.storeWord_ok_of_admits (ea := alignedWord ea) hadm
  refine ⟨?_, ?_, fun hm => ?_, fun hm => ?_⟩
  · exact load_completes h rfl (Attempt.bind_of_ok hload rfl) (mergeLoadLeft_eq ea m v)
  · exact load_completes h rfl (Attempt.bind_of_ok hload rfl) (mergeLoadRight_eq ea m v)
  · exact store_completes h hm rfl (Attempt.bind_of_ok hload (hstore (mergeStoreLeft ea v m)))
      (congrArg bytesOfWord (mergeStoreLeft_eq ea v m))
  · exact store_completes h hm rfl (Attempt.bind_of_ok hload (hstore (mergeStoreRight ea v m)))
      (congrArg bytesOfWord (mergeStoreRight_eq ea v m))

/-! ### What an unaligned access that completes does -/

section

variable {s t : State} {rt rs : Gpr} {imm : BitVec 16} {a ea w : Word}

theorem State.eq_of_loadWord_ok (h : s.loadWord a = .ok w) : w = s.wordOf a := by
  obtain ⟨_, -, ⟨⟩⟩ := (Attempt.bind_eq_ok _ _ _).1 h
  rfl

theorem State.eq_of_storeWord_ok {u : State} (h : s.storeWord a w = .ok u) :
    u = s.putBytes a (bytesOfWord w) := by
  obtain ⟨_, -, ⟨⟩⟩ := (Attempt.bind_eq_ok _ _ _).1 h
  rfl

/-- A load that leaves the machine running: its register, merged from the word, and memory as it was. -/
theorem load_running {i : Instr} {f : Word → Word}
    (he : exec i s = complete i s (s.loadWord a >>= fun m => pure (s.writeGpr rt (f m))))
    (h : exec i s = .next t) (hrun : t.status = .running) :
    t.mem = s.mem ∧ t.gpr[rt] = f (s.wordOf a) := by
  obtain ⟨u, hu, rfl⟩ := ok_of_complete_running (he.symm.trans h) hrun
  obtain ⟨m, hm, ⟨⟩⟩ := (Attempt.bind_eq_ok _ _ _).1 hu
  rw [State.eq_of_loadWord_ok hm]
  exact ⟨rfl, Vector.getElem_set_self _⟩

/-- A store that does: its word, merged from the one it replaces, and the registers as they were. -/
theorem store_running {i : Instr} {f : Word → Word}
    (he : exec i s = complete i s (s.loadWord a >>= fun m => s.storeWord a (f m)))
    (h : exec i s = .next t) (hrun : t.status = .running) :
    t.gpr = s.gpr ∧ t.mem = s.mem.writeBytes a (bytesOfWord (f (s.wordOf a))) := by
  obtain ⟨u, hu, rfl⟩ := ok_of_complete_running (he.symm.trans h) hrun
  obtain ⟨m, hm, hstore⟩ := (Attempt.bind_eq_ok _ _ _).1 hu
  rw [State.eq_of_storeWord_ok hstore, State.eq_of_loadWord_ok hm]
  exact ⟨rfl, rfl⟩

/-- Memory after stwl of `w` at `ea` (R452). -/
def State.memLeft (s : State) (ea w : Word) : Memory :=
  s.mem.writeBytes (alignedWord ea) (bytesOfWord (mergeStoreLeft ea w (s.wordOf (alignedWord ea))))

/-- Memory after stwr of `w` at `ea` (R453). -/
def State.memRight (s : State) (ea w : Word) : Memory :=
  s.mem.writeBytes (alignedWord ea) (bytesOfWord (mergeStoreRight ea w (s.wordOf (alignedWord ea))))

variable (hrun : t.status = .running) (hea : s.gpr[rs] + imm.signExtend 32 = ea)
include hrun hea

theorem ldwl_running (h : exec (.ldwl rt imm rs) s = .next t) :
    t.mem = s.mem ∧ t.gpr[rt] = mergeLoadLeft ea (s.wordOf (alignedWord ea)) s.gpr[rt] := by
  subst hea
  exact load_running rfl h hrun

theorem ldwr_running (h : exec (.ldwr rt imm rs) s = .next t) :
    t.mem = s.mem ∧ t.gpr[rt] = mergeLoadRight ea (s.wordOf (alignedWord ea)) s.gpr[rt] := by
  subst hea
  exact load_running rfl h hrun

theorem stwl_running (h : exec (.stwl rt imm rs) s = .next t) :
    t.gpr = s.gpr ∧ t.mem = s.memLeft ea s.gpr[rt] := by
  subst hea
  exact store_running rfl h hrun

theorem stwr_running (h : exec (.stwr rt imm rs) s = .next t) :
    t.gpr = s.gpr ∧ t.mem = s.memRight ea s.gpr[rt] := by
  subst hea
  exact store_running rfl h hrun

end

/-! ### What a stored word leaves in memory -/

section

variable {s t : State} {a w : Word}

theorem State.wordOf_congr (h : t.mem = s.mem) (a : Word) : t.wordOf a = s.wordOf a := by
  simp only [State.wordOf, State.byteAt, h]

theorem State.byteAt_stored (hm : s.mem.wf) (ht : t.mem = s.mem.writeBytes a (bytesOfWord w)) (c : Word) :
    t.byteAt c = if (c - a).toNat < 4 then byteOf w (c - a).toNat else s.byteAt c := by
  rw [State.byteAt, ht]
  refine (State.byteAt_putBytes s a c (bytesOfWord w) hm (by simp [bytesOfWord])).trans ?_
  by_cases hin : (c - a).toNat < (bytesOfWord w).length
  · rw [dif_pos hin, getElem_bytesOfWord]
    exact (if_pos hin).symm
  · rw [dif_neg hin]
    exact (if_neg hin).symm

theorem State.wordOf_stored (hm : s.mem.wf) (ht : t.mem = s.mem.writeBytes a (bytesOfWord w)) :
    t.wordOf a = w := by
  refine State.wordOf_eq_iff.2 fun j hj => ?_
  rw [State.byteAt_stored hm ht, toNat_add_ofNat_sub (by omega), if_pos hj]

end

/-! ### Round trips (R460) -/

/-- What was shifted down comes back up over its own low bits, whatever word it was merged into. -/
theorem mergeUp_mergeDown {sh : Nat} {w old : Word} (m : Word)
    (h : ∀ k < sh, old.getLsbD k = w.getLsbD k) : mergeUp sh (mergeDown sh w m) old = w := by
  refine BitVec.eq_of_getLsbD_eq fun k hk => ?_
  rw [getLsbD_mergeUp _ _ hk]
  split_ifs with hlow
  · exact h k hlow
  · have hback : sh + (k - sh) = k := by omega
    rw [getLsbD_mergeDown _ _ (by omega), hback, if_pos hk]

/-- What was shifted up comes back down under its own high bits. -/
theorem mergeDown_mergeUp {sh : Nat} {w old : Word} (m : Word)
    (h : ∀ k < 32, 32 - sh ≤ k → old.getLsbD k = w.getLsbD k) :
    mergeDown sh (mergeUp sh w m) old = w := by
  refine BitVec.eq_of_getLsbD_eq fun k hk => ?_
  rw [getLsbD_mergeDown _ _ hk]
  split_ifs with hlow
  · rw [getLsbD_mergeUp _ _ hlow, if_neg (by omega), Nat.add_sub_cancel_left]
  · exact h k hk (by omega)

/-! ### Pairs (R461) -/

theorem State.byteOf_wordOf (s : State) (a : Word) {j : Nat} (hj : j < 4) :
    byteOf (s.wordOf a) j = s.byteAt (a + BitVec.ofNat 32 j) :=
  (State.wordOf_eq_iff.1 rfl j hj).symm

/-- The aligned word of the last of the four bytes from `ea` up begins among them or at their end. -/
theorem alignedWord_add_three (ea : Word) :
    alignedWord (ea + 3#32) = ea + BitVec.ofNat 32 (3 - (ea + 3#32).toNat % 4) := by
  have h := alignedWord_add (ea + 3#32)
  have hlt : (ea + 3#32).toNat % 4 < 4 := Nat.mod_lt _ (by decide)
  refine add_right_cancel (h.trans ?_)
  rw [add_ofNat_add_ofNat, Nat.sub_add_cancel (by omega)]

/-- The two parts of a pair leave no byte out. -/
theorem pair_covers (ea : Word) : 3 - (ea + 3#32).toNat % 4 + ea.toNat % 4 ≤ 4 := by
  have h : (ea + 3#32).toNat = (ea.toNat + 3) % 2 ^ 32 := BitVec.toNat_add ea 3#32
  omega

/-- ldwl and ldwr load the four bytes from `ea` up: each byte comes from one of the two words. -/
theorem loadPair (s : State) (ea old : Word) :
    mergeLoadRight (ea + 3#32) (s.wordOf (alignedWord (ea + 3#32)))
      (mergeLoadLeft ea (s.wordOf (alignedWord ea)) old) = s.wordOf ea := by
  have hcover := pair_covers ea
  refine (State.wordOf_eq_iff.2 fun j hj => ?_).symm
  rw [mergeLoadRight_eq, mergeLoadLeft_eq, byteOf_mergeDown _ _ _ hj]
  split_ifs with hright
  · rw [s.byteOf_wordOf _ (by omega), alignedWord_add_three, add_ofNat_add_ofNat,
      Nat.add_sub_cancel' hright]
  · rw [byteOf_mergeUp _ _ _ hj, if_pos (by omega), s.byteOf_wordOf _ (by omega), Nat.add_comm,
      ← add_ofNat_add_ofNat, alignedWord_add]

/-- The offset from an address further up. -/
theorem toNat_sub_add_ofNat {k : Nat} (hk : k < 2 ^ 32) (c a : Word) :
    (c - (a + BitVec.ofNat 32 k)).toNat = (2 ^ 32 - k + (c - a).toNat) % 2 ^ 32 := by
  rw [← sub_sub, BitVec.toNat_sub, BitVec.toNat_ofNat, Nat.mod_eq_of_lt hk]

theorem add_ofNat_toNat_sub (a c : Word) : a + BitVec.ofNat 32 (c - a).toNat = c := by
  rw [BitVec.ofNat_toNat, BitVec.setWidth_eq, add_sub_cancel]

section

variable {s t u : State} {ea w : Word} (hm : s.mem.wf)
include hm

/-- stwl stores the bytes of the register from `ea` to the end of its aligned word. -/
theorem State.byteAt_memLeft (ht : t.mem = s.memLeft ea w) (c : Word) :
    t.byteAt c =
      if (c - ea).toNat < 4 - ea.toNat % 4 then byteOf w (c - ea).toNat else s.byteAt c := by
  have hoff := toNat_sub_add_ofNat (k := ea.toNat % 4) (by omega) c (alignedWord ea)
  rw [alignedWord_add] at hoff
  rw [State.byteAt_stored hm ht c, mergeStoreLeft_eq]
  split_ifs with hin hleft hleft
  · rw [byteOf_mergeDown _ _ _ hin, if_pos (by omega)]
    congr 1
    omega
  · rw [byteOf_mergeDown _ _ _ hin, if_neg (by omega), s.byteOf_wordOf _ hin, add_ofNat_toNat_sub]
  · omega
  · rfl

/-- stwr at the last of the four bytes from `ea` up stores those of them in its aligned word. -/
theorem State.byteAt_memRight (ht : t.mem = s.memRight (ea + 3#32) w) (c : Word) :
    t.byteAt c = if 3 - (ea + 3#32).toNat % 4 ≤ (c - ea).toNat ∧ (c - ea).toNat < 4
      then byteOf w (c - ea).toNat else s.byteAt c := by
  have hoff := toNat_sub_add_ofNat (k := 3 - (ea + 3#32).toNat % 4) (by omega) c ea
  rw [← alignedWord_add_three] at hoff
  rw [State.byteAt_stored hm ht c, mergeStoreRight_eq]
  split_ifs with hin hright hright
  · rw [byteOf_mergeUp _ _ _ hin, if_pos (by omega)]
    congr 1
    omega
  · rw [byteOf_mergeUp _ _ _ hin, if_neg (by omega), s.byteOf_wordOf _ hin, add_ofNat_toNat_sub]
  · omega
  · rfl

/-- Together they store the four bytes from `ea` up. -/
theorem State.byteAt_storePair (ht : t.mem = s.memLeft ea w) (hu : u.mem = t.memRight (ea + 3#32) w)
    (c : Word) :
    u.byteAt c = if (c - ea).toNat < 4 then byteOf w (c - ea).toNat else s.byteAt c := by
  have htwf : t.mem.wf := ht ▸ Memory.writeBytes_wf _ _ _ hm
  have hcover := pair_covers ea
  rw [State.byteAt_memRight htwf hu, State.byteAt_memLeft hm ht]
  by_cases hin : (c - ea).toNat < 4
  · by_cases hright : 3 - (ea + 3#32).toNat % 4 ≤ (c - ea).toNat
    · rw [if_pos ⟨hright, hin⟩, if_pos hin]
    · rw [if_neg fun h => hright h.1, if_pos (by omega), if_pos hin]
  · rw [if_neg fun h => hin h.2, if_neg (by omega), if_neg hin]

end

/-- Settles O58: a merge undoes the opposite one, and the two accesses of a pair reach the four bytes from
`ea` up between them. -/
theorem unalignedPairLaws : Obligations.UnalignedPairLaws := by
  intro s t u v rt rs rd rb imm off hm ht hv ea w l r
  refine ⟨fun hmem hea hst hld hbits => ?_, fun hmem hea hst hld hbits => ?_,
    fun hea hleft hright => ?_, fun hea hleft hright => ?_⟩
  · obtain ⟨-, hstored⟩ := stwl_running ht rfl hst
    obtain ⟨-, hloaded⟩ := ldwl_running hv hea hld
    rw [hloaded, State.wordOf_stored hm (hmem.trans hstored), mergeLoadLeft_eq, mergeStoreLeft_eq]
    exact mergeUp_mergeDown _ hbits
  · obtain ⟨-, hstored⟩ := stwr_running ht rfl hst
    obtain ⟨-, hloaded⟩ := ldwr_running hv hea hld
    rw [hloaded, State.wordOf_stored hm (hmem.trans hstored), mergeLoadRight_eq, mergeStoreRight_eq]
    exact mergeDown_mergeUp _ hbits
  · obtain ⟨hmem, hloaded⟩ := ldwl_running ht rfl hleft
    obtain ⟨-, hpair⟩ := ldwr_running hv hea hright
    rw [hpair, hloaded, State.wordOf_congr hmem, loadPair]
  · obtain ⟨hgpr, hmem⟩ := stwl_running ht rfl hleft
    obtain ⟨-, hpair⟩ := stwr_running hv hea hright
    rw [hgpr] at hpair
    have hbyte := State.byteAt_storePair hm hmem hpair
    refine ⟨State.wordOf_eq_iff.2 fun j hj => ?_, fun a ha => ?_⟩
    · rw [hbyte, toNat_add_ofNat_sub (by omega), if_pos hj]
    · rw [hbyte, if_neg fun hlt => ha _ hlt (add_ofNat_toNat_sub ea a).symm]

end Sys2Proof.Machine
end

section
/-! The checks of the fetch (60_exceptions.md R497), the word that withFetchWord places, and O5, O6 and O7. -/

namespace Sys2Proof.Machine

/-! ### The fetch -/

section

variable {s : State} {a : Word}

/-- A word is stored to when one of its four bytes is (20_memory.md R121). -/
theorem State.storedInWord_iff :
    s.storedInWord a = true ↔ ∃ k < 4, (a + BitVec.ofNat 32 k).toNat ∈ s.stored := by
  simp only [State.storedInWord, List.any_cons, List.any_nil, Bool.or_false, Bool.or_eq_true,
    List.contains_iff_mem, Nat.lt_succ_iff_lt_or_eq, or_and_right, exists_or, exists_eq_left,
    Nat.not_lt_zero, false_or, BitVec.add_zero, or_assoc]

/-- Past its first two checks the fetch looks at the stores of the run. -/
theorem State.fetch_of_admits (hal : s.pc.toNat % 4 = 0) (hadm : s.Admits s.pc 4) :
    s.fetch = if s.emb.smcPolicy = .fault ∧ s.storedInWord s.pc = true then
      .error (.trap .selfModifyingCode) else .ok (s.wordOf s.pc) := by
  rw [State.fetch, if_neg (not_not.2 hal), (s.admitsRun_iff s.pc 4).2 hadm]
  rfl

/-- Past its checks the fetch reads the word at pc. -/
theorem State.fetch_ok (hal : s.pc.toNat % 4 = 0) (hadm : s.Admits s.pc 4)
    (hsmc : s.emb.smcPolicy = .fault → ∀ k < 4, (s.pc + BitVec.ofNat 32 k).toNat ∉ s.stored) :
    s.fetch = .ok (s.wordOf s.pc) := by
  refine (State.fetch_of_admits hal hadm).trans (if_neg ?_)
  rintro ⟨hpolicy, hst⟩
  obtain ⟨k, hk, hmem⟩ := State.storedInWord_iff.1 hst
  exact hsmc hpolicy k hk hmem

theorem State.fetch_stored (hal : s.pc.toNat % 4 = 0) (hadm : s.Admits s.pc 4)
    (hpolicy : s.emb.smcPolicy = .fault) (hst : ∃ k < 4, (s.pc + BitVec.ofNat 32 k).toNat ∈ s.stored) :
    s.fetch = .error (.trap .selfModifyingCode) :=
  (State.fetch_of_admits hal hadm).trans (if_pos ⟨hpolicy, State.storedInWord_iff.2 hst⟩)

theorem State.fetch_misaligned (hal : s.pc.toNat % 4 ≠ 0) :
    s.fetch = .error (.trap .misalignedFetch) :=
  if_pos hal

theorem State.fetch_stuck (hal : s.pc.toNat % 4 = 0) (hadm : ¬ s.Admits s.pc 4) :
    s.fetch = .error (.stuck s.pc) := by
  have hrun : s.admitsRun s.pc 4 = false := Bool.eq_false_iff.2 (mt (s.admitsRun_iff s.pc 4).1 hadm)
  rw [State.fetch, if_neg (not_not.2 hal), hrun]
  rfl

/-! ### The block's step by its fetch -/

theorem blockStep_trap {tr : Trap} (h : s.fetch = .error (.trap tr)) :
    blockStep s = .next (s.halt tr none) := by
  rw [blockStep, h]

theorem blockStep_stuck (h : s.fetch = .error (.stuck a)) : blockStep s = .fault (.stuckFetch a) := by
  rw [blockStep, h]

/-- A word that is no instruction is recorded (60_exceptions.md R493). -/
theorem blockStep_reserved {w : Word} {e : DecodeError} (h : s.fetch = .ok w) (hd : decode w = .error e) :
    blockStep s = .next (s.halt .reservedInstruction (some w)) := by
  rw [blockStep, h]
  dsimp only
  rw [hd]

end

/-- Settles O5: the fetch passes its checks, and the resume is the check of npc. -/
theorem stepRunsDecoded : Obligations.StepRunsDecoded := by
  refine ⟨fun s i hrun hblock hal hadm hsmc hdec => ?_, fun s word hrun hresume => ?_⟩
  · rw [step_block s hrun hblock]
    exact blockStep_ok s _ i (State.fetch_ok hal hadm hsmc) hdec
  · rw [step_resume s word hrun hresume]
    exact ⟨resumeTurn_ok word s, fun h => resumeTurn_wrap word s (not_not.1 h)⟩

/-- Settles O6: each check of the fetch decides the step once those before it pass. -/
theorem fetchChecks : Obligations.FetchChecks := by
  refine fun s => ⟨step_ended s, fun hrun hblock => ?_⟩
  rw [step_block s hrun hblock]
  exact ⟨fun hal => blockStep_trap (State.fetch_misaligned hal),
    fun hal hadm => blockStep_stuck (State.fetch_stuck hal hadm),
    fun hal hadm hpolicy hst => blockStep_trap (State.fetch_stored hal hadm hpolicy hst),
    fun hal hadm hsmc hrows =>
      blockStep_reserved (State.fetch_ok hal hadm hsmc) (decode_eq_error hrows)⟩

/-! ### The placed word (log 23) -/

/-- Addresses that do not wrap. -/
theorem toNat_add_ofNat_of_lt {a : Word} {k : Nat} (h : a.toNat + k < 2 ^ 32) :
    (a + BitVec.ofNat 32 k).toNat = a.toNat + k := by
  rw [BitVec.toNat_add, BitVec.toNat_ofNat]
  omega

section

variable {s : State} {w : Word}

theorem alignedWord_aligned (a : Word) : (alignedWord a).toNat % 4 = 0 := by
  rw [← toNat_and_three, alignedWord, BitVec.and_assoc]
  exact congrArg BitVec.toNat (BitVec.and_zero (x := a))

theorem AddrSet.not_mem_dropWord (l : AddrSet) (a : Word) {k : Nat} (hk : k < 4) :
    (a + BitVec.ofNat 32 k).toNat ∉ l.dropWord a := by
  intro h
  have hnot := (List.mem_filter.1 h).2
  interval_cases k <;> simp at hnot

theorem State.placeWord_admits : (s.placeWord w).Admits (s.placeWord w).pc 4 := by
  intro k hk
  have hal := alignedWord_aligned s.pc
  change (if s.admitsRun (alignedWord s.pc) 4 then s.emb else _).launch.any _ = true
  split_ifs with hadm
  · exact (s.admitsRun_iff _ 4).1 hadm k hk
  · refine List.any_eq_true.2 ⟨_, List.mem_cons_self, ?_⟩
    have hlt := (alignedWord s.pc).isLt
    have hoff := toNat_add_ofNat_of_lt (a := alignedWord s.pc) (k := k) (by omega)
    change Region.contains ⟨(alignedWord s.pc).toNat, 4⟩
      (alignedWord s.pc + BitVec.ofNat 32 k).toNat = true
    simp only [Region.contains, hoff, Bool.and_eq_true, decide_eq_true_eq]
    omega

theorem State.step_placeWord {i : Instr} (hm : s.mem.wf) (hdec : decode w = .ok i) :
    step (s.placeWord w) = exec i (s.placeWord w) := by
  obtain ⟨hstep, -⟩ := stepRunsDecoded
  refine hstep (s.placeWord w) i rfl rfl (alignedWord_aligned s.pc) State.placeWord_admits
    (fun _ k hk => s.stored.not_mem_dropWord (alignedWord s.pc) hk) ?_
  rwa [State.wordOf_stored hm rfl]

end

/-- Settles O7: the placed word passes every check of the fetch and decodes to its instruction. -/
theorem withFetchWordRuns : Obligations.WithFetchWordRuns := by
  intro s i hm hi
  refine State.step_placeWord hm ?_
  rw [Nat.mod_eq_of_lt (encode i).isLt, BitVec.ofNat_toNat, BitVec.setWidth_eq]
  exact decode_encode hi

end Sys2Proof.Machine
end

section
/-! Faults are precise (60_exceptions.md R480, R498): which faults an instruction raises, what a step that
halts has done, and O8. -/

namespace Sys2Proof.Machine

/-! ### The faults of a fetched word -/

/-- The faults of a fetched word: all but those of the fetch itself (60_exceptions.md R488, R494) and the
host's (R495). -/
def Trap.ofWord : Trap → Bool
  | .misalignedFetch => false
  | .selfModifyingCode => false
  | .hostFatal => false
  | _ => true

/-- A trap that stops the attempt is a fault of a fetched word. -/
def Attempt.TrapsOfWord {α : Type} (a : Attempt α) : Prop :=
  ∀ tr, a = .error (.trap tr) → tr.ofWord = true

namespace Attempt.TrapsOfWord

variable {α β : Type}

theorem ok {v : α} : TrapsOfWord (.ok v) := nofun

theorem pure {v : α} : TrapsOfWord (Pure.pure v : Attempt α) := ok

theorem stuck {a : Word} : TrapsOfWord (.error (.stuck a) : Attempt α) := nofun

theorem trap {tr : Trap} (h : tr.ofWord = true) : TrapsOfWord (.error (.trap tr) : Attempt α) := by
  rintro _ ⟨⟩
  exact h

/-- After a check that traps so, it is the rest that counts. -/
theorem bind_iff {a : Attempt β} {k : β → Attempt α} (ha : a.TrapsOfWord) :
    TrapsOfWord (a >>= k) ↔ ∀ v, a = .ok v → (k v).TrapsOfWord := by
  cases a with
  | error e => exact iff_of_true (fun tr h => by cases h; exact ha tr rfl) nofun
  | ok v => exact ⟨by rintro h _ ⟨⟩; exact h, fun h => h v rfl⟩

theorem bind {a : Attempt β} {k : β → Attempt α} (ha : a.TrapsOfWord)
    (hk : ∀ v, (k v).TrapsOfWord) : TrapsOfWord (a >>= k) :=
  (bind_iff ha).2 fun v _ => hk v

theorem map {a : Attempt β} {f : β → α} (ha : a.TrapsOfWord) : TrapsOfWord (a.map f) :=
  bind ha fun _ => ok

theorem ite {c : Prop} [Decidable c] {a b : Attempt α} (ha : a.TrapsOfWord) (hb : b.TrapsOfWord) :
    TrapsOfWord (if c then a else b) := by
  split_ifs
  · exact ha
  · exact hb

end Attempt.TrapsOfWord

/-! ### The checks and reads that instructions share -/

section

variable {s : State} {a : Word} {n m : Nat}

theorem Marked.read_traps {α : Type} (x : Marked α) (which : MarkedReg) : (x.read which).TrapsOfWord :=
  .ite .ok (.trap rfl)

theorem State.readCc_traps : s.readCc.TrapsOfWord := s.cc.read_traps .cc
theorem State.readLdireg_traps : s.readLdireg.TrapsOfWord := s.ldireg.read_traps .ldireg
theorem State.readIjmpreg_traps : s.readIjmpreg.TrapsOfWord := s.ijmpreg.read_traps .ijmpreg
theorem State.readS_traps {j : Fpr} : (s.readS j).TrapsOfWord := Marked.read_traps _ (.fpr j)
theorem State.readD_traps {j : Fpr} : (s.readD j).TrapsOfWord :=
  .bind readS_traps fun _ => .bind readS_traps fun _ => .pure

theorem checkDouble_traps {j : Fpr} : (checkDouble j).TrapsOfWord := .ite (.trap rfl) .ok
theorem checkDivisor_traps : (checkDivisor a).TrapsOfWord := .ite (.trap rfl) .ok
theorem checkQuotient_traps {b : Word} : (checkQuotient a b).TrapsOfWord := .ite (.trap rfl) .ok
theorem checkField_traps : (checkField n m).TrapsOfWord := .ite (.trap rfl) .ok
theorem checkAligned_traps : (checkAligned a n).TrapsOfWord := .ite .ok (.trap rfl)
theorem State.checkRoundMode_traps : s.checkRoundMode.TrapsOfWord := .ite .ok (.trap rfl)
theorem State.checkAdmitted_traps : (s.checkAdmitted a n).TrapsOfWord := .ite .ok .stuck

theorem State.loadByte_traps : (s.loadByte a).TrapsOfWord := .bind checkAdmitted_traps fun _ => .pure
theorem State.loadHalf_traps : (s.loadHalf a).TrapsOfWord := .bind checkAdmitted_traps fun _ => .pure
theorem State.loadWord_traps : (s.loadWord a).TrapsOfWord := .bind checkAdmitted_traps fun _ => .pure
theorem State.storeByte_traps {v : Byte} : (s.storeByte a v).TrapsOfWord :=
  .bind checkAdmitted_traps fun _ => .pure
theorem State.storeHalf_traps {v : Half} : (s.storeHalf a v).TrapsOfWord :=
  .bind checkAdmitted_traps fun _ => .pure
theorem State.storeWord_traps {v : Word} : (s.storeWord a v).TrapsOfWord :=
  .bind checkAdmitted_traps fun _ => .pure
theorem State.copyS_traps {fd fs : Fpr} : (s.copyS fd fs).TrapsOfWord := .bind readS_traps fun _ => .pure
theorem State.copyD_traps {fd fs : Fpr} : (s.copyD fd fs).TrapsOfWord := .bind readD_traps fun _ => .pure

end

/-! ### The instructions -/

section

variable {i : Instr} {s t : State} {tr : Trap} {w : Option Word}

theorem State.halt_trap_inj {tr' : Trap} {w' : Option Word} (h : s.halt tr w = s.halt tr' w') :
    tr = tr' := by
  injection congrArg State.status h

/-- What does not transfer control moves pc where it does not halt. -/
theorem complete_halted {a : Attempt State} (ha : a.TrapsOfWord)
    (h : complete i s a = .next (s.halt tr w)) : tr.ofWord = true := by
  rcases a with (tr' | addr) | u
  · obtain rfl := State.halt_trap_inj (Host.Outcome.next.inj h)
    exact ha tr' rfl
  · cases h
  · by_cases hwrap : s.pc + 4#32 = 0#32
    · rw [complete_wrap i s u hwrap] at h
      obtain rfl := State.halt_trap_inj (Host.Outcome.next.inj h)
      rfl
    · rw [complete_ok i s u hwrap] at h
      have hpc : s.pc + 4#32 = s.pc := congrArg State.pc (Host.Outcome.next.inj h)
      exact absurd hpc (by simp)

/-- A transfer keeps the machine running where it does not halt. -/
theorem transfer_halted {a : Attempt (State × Word)} (ha : a.TrapsOfWord)
    (hrun : a.Gives fun q => q.1.status = .running)
    (h : transfer i s a = .next (s.halt tr w)) : tr.ofWord = true := by
  rcases a with (tr' | addr) | ⟨u, p⟩
  · obtain rfl := State.halt_trap_inj (Host.Outcome.next.inj h)
    exact ha tr' rfl
  · cases h
  · by_cases hp : p = 0#32
    · subst hp
      rw [transfer_zero i s u] at h
      obtain rfl := State.halt_trap_inj (Host.Outcome.next.inj h)
      rfl
    · rw [transfer_ok i s u p hp] at h
      have hstatus : u.status = .halted tr s.pc w := congrArg State.status (Host.Outcome.next.inj h)
      cases (hrun _ rfl).symm.trans hstatus

theorem branch_halted {taken : Attempt Bool} {imm : BitVec 16} (hrun : s.status = .running)
    (ha : taken.TrapsOfWord) : branch i s taken imm = .next (s.halt tr w) → tr.ofWord = true :=
  transfer_halted (.bind ha fun _ => .pure) (.bind fun _ _ => .pure hrun)

open Attempt in
/-- An instruction that halts a running machine does so with a fault of its word. -/
theorem exec_halted (hrun : s.status = .running) :
    exec i s = .next (s.halt tr w) → tr.ofWord = true := by
  unfold exec
  cases i with
  | jump | call | jumpr | callr | rcall => exact transfer_halted .ok (.pure hrun)
  | jeq | jne | jlez | jgtz | jltz | jgez => exact branch_halted hrun .ok
  | bc1t => exact branch_halted hrun State.readCc_traps
  | bc1f => exact branch_halted hrun (.map State.readCc_traps)
  | ijmp =>
    exact transfer_halted
      (.bind State.readIjmpreg_traps fun _ => .bind checkAligned_traps fun _ =>
        .bind State.loadWord_traps fun _ => .pure)
      (.bind fun _ _ => .bind fun _ _ => .bind fun _ _ => .pure hrun)
  | mul | mulu => exact complete_halted .ok
  | teq => exact complete_halted (.ite (.trap rfl) .ok)
  | brk => exact complete_halted (a := .error (.trap .break)) (.trap rfl)
  | syscall =>
    intro h
    have hcalled : s.status = .halted tr s.pc w := congrArg State.status (Host.Outcome.next.inj h)
    cases hrun.symm.trans hcalled
  | _ => -- each of its checks and reads in turn, and then its writes
    refine complete_halted ?_
    simp only [TrapsOfWord.bind_iff, TrapsOfWord.ok, TrapsOfWord.pure, TrapsOfWord.map,
      TrapsOfWord.ite, implies_true, checkDouble_traps,
      checkDivisor_traps, checkQuotient_traps, checkField_traps, checkAligned_traps,
      State.checkRoundMode_traps, State.checkAdmitted_traps, State.readCc_traps,
      State.readLdireg_traps, State.readS_traps, State.readD_traps, State.copyS_traps,
      State.copyD_traps, State.loadByte_traps, State.loadHalf_traps, State.loadWord_traps,
      State.storeByte_traps, State.storeHalf_traps, State.storeWord_traps]

/-- A running state that an instruction leaves running, or its record of a fault of its word. -/
theorem exec_running_or_halted (hrun : s.status = .running) (h : exec i s = .next t) :
    t.status = .running ∨ ∃ tr, tr.ofWord = true ∧ t = s.halt tr (some (encode i)) := by
  cases exec_ends h with
  | halted => exact .inr ⟨_, exec_halted hrun h, rfl⟩
  | called => exact .inl hrun
  | reached hu =>
    obtain ⟨-, -, -, hstatus, -⟩ := hu.kept
    exact .inl (hstatus.trans hrun)

end

/-! ### The record of a fault (R480, R498) -/

section

variable {s t : State} {tr : Trap} {pc : Word} {w : Option Word}

theorem State.fetch_eq_trap (h : s.fetch = .error (.trap tr)) :
    tr = .misalignedFetch ∨ tr = .selfModifyingCode := by
  unfold State.fetch at h
  split_ifs at h <;> cases h
  · exact .inl rfl
  · exact .inr rfl

theorem State.fetch_eq_ok {x : Word} (h : s.fetch = .ok x) : x = s.wordOf s.pc := by
  unfold State.fetch at h
  split_ifs at h
  cases h
  rfl

/-- The record `halted tr s.pc w` of a step of the block: without a word just for the faults of the fetch,
and else with the word at pc. -/
def State.Records (s : State) (tr : Trap) (w : Option Word) : Prop :=
  tr ≠ .hostFatal ∧ (w = none ↔ tr = .misalignedFetch ∨ tr = .selfModifyingCode) ∧
    ∀ x, w = some x → x = s.wordOf s.pc

theorem State.records_of_fetch (h : s.fetch = .error (.trap tr)) : s.Records tr none := by
  obtain rfl | rfl := State.fetch_eq_trap h <;> exact ⟨nofun, by simp, nofun⟩

theorem State.records_of_word {x : Word} (h : s.fetch = .ok x) (htr : tr.ofWord = true) :
    s.Records tr (some x) := by
  refine ⟨?_, ⟨nofun, ?_⟩, ?_⟩
  · rintro rfl
    cases htr
  · rintro (rfl | rfl) <;> cases htr
  · rintro _ ⟨⟩
    exact State.fetch_eq_ok h

/-- A step of the block that halts has taken a fault, and nothing else. -/
theorem blockStep_halted (hrun : s.status = .running) (h : blockStep s = .next t)
    (hstatus : t.status = .halted tr pc w) : t = s.halt tr w ∧ s.Records tr w := by
  obtain ⟨tr', hf, rfl⟩ | ⟨x, hf, ⟨-, rfl⟩ | ⟨i, hdec, hexec⟩⟩ := blockStep_next h
  · cases hstatus
    exact ⟨rfl, State.records_of_fetch hf⟩
  · cases hstatus
    exact ⟨rfl, State.records_of_word hf rfl⟩
  · obtain hgo | ⟨tr', htr, rfl⟩ := exec_running_or_halted hrun hexec
    · cases hgo.symm.trans hstatus
    · cases hstatus
      obtain ⟨-, hword⟩ := encodeOfDecode x i hdec
      exact ⟨rfl, State.records_of_word (hword ▸ hf) htr⟩

/-- The host's turn halts by the host's own fatal condition alone (R495). -/
theorem hostTurn_halted {word : Word} (hrun : s.status = .running) (h : hostTurn word s = .next t)
    (hstatus : t.status = .halted tr pc w) : tr = .hostFatal ∧ pc = s.pc ∧ w = some word := by
  obtain ⟨t', ht', hend, -⟩ := hostTurn_next word s
  obtain rfl : t' = t := by simpa [ht'] using h
  rw [hrun, hstatus] at hend
  obtain ⟨⟨⟩, -⟩ | ⟨n, ⟨⟩⟩ | ⟨⟨⟩⟩ := hend
  exact ⟨rfl, rfl, rfl⟩

end

/-- Settles O8: a fault of the block or of the resume is the halt with its record, and the host's turn has
its own. -/
theorem faultsArePrecise : Obligations.FaultsArePrecise := by
  intro s t tr pc w hrun hstep hstatus
  obtain ⟨-, ⟨hc, hblock⟩ | ⟨word, ⟨hc, hhost⟩ | ⟨hc, hresume⟩⟩⟩ := step_next hstep
  · obtain ⟨ht, hne, hrecord⟩ := blockStep_halted hrun hblock hstatus
    exact .inr ⟨hne, ht, .inl ⟨hc, hrecord⟩⟩
  · obtain ⟨htr, hpc, hw⟩ := hostTurn_halted hrun hhost hstatus
    exact .inl ⟨htr, hpc, word, hc, hw⟩
  · obtain ⟨-, rfl⟩ | ⟨-, rfl⟩ := resumeTurn_next hresume
    · cases hstatus
      exact .inr ⟨nofun, rfl, .inr ⟨word, hc, rfl, rfl⟩⟩
    · cases hrun.symm.trans hstatus

end Sys2Proof.Machine
end

section
/-! The operand checks (60_exceptions.md R497): an instruction checks the indices of its doubles, then the
rounding mode it needs, and then reads its marked registers; and O52. -/

namespace Sys2Proof.Machine

/-! ### The checks in their order -/

/-- The attempt after the checks of the double indices in a list (R490). -/
def checkDoubles {α : Type} : List Fpr → Attempt α → Attempt α
  | [], a => a
  | j :: l, a => checkDouble j >>= fun _ => checkDoubles l a

/-- The attempt after the check of the rounding mode, which round.w alone makes (R492). -/
def checkModeOf {α : Type} (s : State) (a : Attempt α) : Instr → Attempt α
  | .roundWS .. => s.checkRoundMode >>= fun _ => a
  | .roundWD .. => s.checkRoundMode >>= fun _ => a
  | _ => a

/-- The attempt stops at an unwritten one of the marked registers `ms` if there is one (R489). -/
def ReadsFirst {α : Type} (s : State) (ms : List MarkedReg) (a : Attempt α) : Prop :=
  (∃ m ∈ ms, s.isWritten m = false) →
    ∃ m ∈ ms, s.isWritten m = false ∧ a = .error (.trap (.unwrittenState m))

/-- The meaning of `i` begins with its operand checks: what closes it raises the trap of the check that
fails. -/
def ChecksOperands (i : Instr) (s : State) : Prop :=
  ∃ (α : Type) (close : Attempt α → Result) (a : Attempt α),
    (∀ tr, close (.error (.trap tr)) = raise i tr s) ∧
      exec i s = close (checkDoubles i.doubleIndices (checkModeOf s a i)) ∧
      ReadsFirst s i.markedReads a

section

variable {α β : Type} {s : State} {i : Instr} {a : Attempt α} {l : List Fpr} {ms : List MarkedReg}

theorem checkDoubles_of_mem (h : 31 ∈ l) :
    checkDoubles l a = .error (.trap (.doubleRegisterOutOfRange 31)) := by
  induction l with
  | nil => cases h
  | cons j l ih =>
    by_cases hj : j = 31
    · subst hj
      rfl
    · rw [checkDoubles, checkDouble_of_ne j hj]
      exact ih (List.mem_of_ne_of_mem (Ne.symm hj) h)

theorem checkDoubles_of_not_mem (h : 31 ∉ l) : checkDoubles l a = a := by
  induction l with
  | nil => rfl
  | cons j l ih =>
    rw [checkDoubles, checkDouble_of_ne j (List.ne_of_not_mem_cons h).symm]
    exact ih (List.not_mem_of_not_mem_cons h)

theorem checkModeOf_unavailable (hmode : s.emb.roundModeSettable = false)
    (h : ∃ fd fs, i = .roundWS fd fs ∨ i = .roundWD fd fs) :
    checkModeOf s a i = .error (.trap .roundingModeUnavailable) := by
  have hcheck : s.checkRoundMode = .error (.trap .roundingModeUnavailable) :=
    if_neg (Bool.eq_false_iff.1 hmode)
  obtain ⟨fd, fs, rfl | rfl⟩ := h <;> exact Attempt.bind_of_error hcheck

theorem checkModeOf_passed
    (h : s.emb.roundModeSettable = true ∨ ∀ fd fs, i ≠ .roundWS fd fs ∧ i ≠ .roundWD fd fs) :
    checkModeOf s a i = a := by
  obtain hmode | hne := h
  · unfold checkModeOf
    split
    · exact Attempt.bind_of_ok (State.checkRoundMode_of_settable hmode) rfl
    · exact Attempt.bind_of_ok (State.checkRoundMode_of_settable hmode) rfl
    · rfl
  · unfold checkModeOf
    split
    · exact absurd rfl (hne _ _).1
    · exact absurd rfl (hne _ _).2
    · rfl

/-! ### The marked reads -/

namespace ReadsFirst

/-- No marked register is read first. -/
theorem none : ReadsFirst s [] a := by
  rintro ⟨m, hm, -⟩
  cases hm

theorem read {x : Marked β} {which : MarkedReg} {k : β → Attempt α} (hx : s.isWritten which = x.written)
    (hk : ∀ v, ReadsFirst s ms (k v)) : ReadsFirst s (which :: ms) (x.read which >>= k) := by
  intro h
  cases hw : x.written with
  | false =>
    refine ⟨which, List.mem_cons_self, hx.trans hw, ?_⟩
    rw [Marked.read_unwritten x which hw]
    rfl
  | true =>
    have hrest : ∃ m ∈ ms, s.isWritten m = false := by simpa [hx, hw] using h
    obtain ⟨m, hm, hread⟩ := hk x.val hrest
    rw [Marked.read_written x which hw]
    exact ⟨m, List.mem_cons_of_mem _ hm, hread⟩

/-- A guard that is the negation of cc reads cc. -/
theorem readNot {k : Bool → Attempt α} (hk : ∀ b, ReadsFirst s ms (k b)) :
    ReadsFirst s (.cc :: ms) (s.readCc.map not >>= k) := by
  have hmap : (s.readCc.map not >>= k) = s.readCc >>= fun b => k !b := by cases s.readCc <;> rfl
  rw [hmap]
  exact .read rfl fun b => hk !b

theorem readS {j : Fpr} {k : Word → Attempt α} (hk : ∀ v, ReadsFirst s ms (k v)) :
    ReadsFirst s (.fpr j :: ms) (s.readS j >>= k) :=
  .read rfl hk

/-- A double is read slot by slot, the lower one first (log 9). -/
theorem readD {j : Fpr} {k : DWord → Attempt α} (hk : ∀ v, ReadsFirst s ms (k v)) :
    ReadsFirst s (.fpr j :: .fpr (j + 1) :: ms) (s.readD j >>= k) := by
  rw [State.readD, bind_assoc]
  exact .readS fun low => (bind_assoc (s.readS (j + 1)) _ k).symm ▸ .readS fun high => hk _

end ReadsFirst

/-! ### The instructions -/

theorem checksOperands_complete {a : Attempt State}
    (he : exec i s = complete i s (checkDoubles i.doubleIndices (checkModeOf s a i)))
    (ha : ReadsFirst s i.markedReads a) : ChecksOperands i s :=
  ⟨State, complete i s, a, fun _ => rfl, he, ha⟩

theorem checksOperands_transfer {a : Attempt (State × Word)}
    (he : exec i s = transfer i s (checkDoubles i.doubleIndices (checkModeOf s a i)))
    (ha : ReadsFirst s i.markedReads a) : ChecksOperands i s :=
  ⟨State × Word, transfer i s, a, fun _ => rfl, he, ha⟩

open ReadsFirst in
/-- Every instruction that has an operand check begins with its operand checks. -/
theorem exec_checksOperands (i : Instr) (s : State) :
    i.doubleIndices = [] ∧ i.markedReads = [] ∨ ChecksOperands i s := by
  cases i with
  | movt | movf => exact .inr (checksOperands_complete rfl (.read rfl fun _ => none))
  | bc1t => exact .inr (checksOperands_transfer rfl (.read rfl fun _ => none))
  | bc1f => exact .inr (checksOperands_transfer rfl (readNot fun _ => none))
  | ldihi => exact .inr (checksOperands_complete rfl (.read rfl fun _ => none))
  | ijmp => exact .inr (checksOperands_transfer rfl (.read rfl fun _ => none))
  | addS | subS | mulS | divS | cEqS | cOleS | cOltS | cUeqS | cUleS | cUltS | cUnS =>
    exact .inr (checksOperands_complete rfl (readS fun _ => readS fun _ => none))
  | addD | subD | mulD | divD | cEqD | cOleD | cOltD | cUeqD | cUleD | cUltD | cUnD =>
    exact .inr (checksOperands_complete rfl (readD fun _ => readD fun _ => none))
  | maddS | msubS =>
    exact .inr (checksOperands_complete rfl (readS fun _ => readS fun _ => readS fun _ => none))
  | maddD | msubD =>
    exact .inr (checksOperands_complete rfl (readD fun _ => readD fun _ => readD fun _ => none))
  | sqrtS | absS | negS | movS | cvtDS | cvtSW | cvtDW | cvtWS | roundWS | ceilWS | floorWS | truncWS
  | mfc1 | mflc1 | mfhc1 | swc1 =>
    exact .inr (checksOperands_complete rfl (readS fun _ => none))
  | sqrtD | absD | negD | movD | cvtSD | cvtWD | roundWD | ceilWD | floorWD | truncWD | sdc1 =>
    exact .inr (checksOperands_complete rfl (readD fun _ => none))
  | movtS | movtD => exact .inr (checksOperands_complete rfl (.read rfl fun _ => none))
  | movfS | movfD => exact .inr (checksOperands_complete rfl (readNot fun _ => none))
  | movzD | movnD | mthc1 | ldc1 => exact .inr (checksOperands_complete rfl none)
  | _ => exact .inl ⟨rfl, rfl⟩

end

/-- Settles O52: each check comes once those before it pass. -/
theorem operandChecks : Obligations.OperandChecks := by
  intro i s
  obtain ⟨hdoubles, hreads⟩ | ⟨α, close, a, hclose, hexec, hread⟩ := exec_checksOperands i s
  · refine ⟨fun h => ?_, fun _ _ h => ?_, fun _ _ h => ?_⟩
    · simp [hdoubles] at h
    · obtain ⟨fd, fs, rfl | rfl⟩ := h <;> cases hreads
    · simp [hreads] at h
  · refine ⟨fun h => ?_, fun h hmode hround => ?_, fun h hmode hunwritten => ?_⟩
    · rw [Raises, hexec, checkDoubles_of_mem h]
      exact hclose _
    · rw [Raises, hexec, checkDoubles_of_not_mem h, checkModeOf_unavailable hmode hround]
      exact hclose _
    · obtain ⟨m, hm, hw, ha⟩ := hread hunwritten
      refine ⟨m, hm, hw, ?_⟩
      rw [Raises, hexec, checkDoubles_of_not_mem h, checkModeOf_passed hmode, ha]
      exact hclose _

end Sys2Proof.Machine
end

section
/-! The host calls that the host performs (60_exceptions.md R507, R508, R511, R513): its answer, the exit, the
bytes it writes, and O36 and O37. -/

namespace Sys2Proof.Machine

/-- The state after the host's answer to the syscall whose word is `word` (R508, R495; log 30). -/
def State.answered (word : Word) (s : State) : HostReply → State
  | .fatal writes => (s.hostWrites writes).halt .hostFatal (some word)
  | .returns r writes =>
    { (s.hostWrites writes).hostReturn r (errorFlag r) with control := .resume word }

/-- The state whose draws are numbered on from `d`. -/
def State.withDraws (d : Nat) (s : State) : State := { s with draws := d }

section

variable {s t : State} {word : Word} {reply : HostReply} {rest : List HostReply}

/-! ### The turns -/

/-- The host's turn for a call it performs: the exit (R511), or an answer. -/
theorem hostTurn_performed (hsup : s.supports s.gpr[(4 : Gpr)] = true) :
    hostTurn word s =
      if s.gpr[(4 : Gpr)] = s.emb.exitNr then
        .next { s.shiftDown with status := .exited s.shiftDown.gpr[(4 : Gpr)] }
      else .next (s.shiftDown.takeReply.2.answered word s.shiftDown.takeReply.1) := by
  have hperformed : ¬ (!s.supports (s.readGpr 4)) = true := by
    rw [State.readGpr_eq, hsup]
    decide
  refine (if_neg hperformed).trans (if_congr Iff.rfl rfl ?_)
  dsimp only
  cases s.shiftDown.takeReply.1 <;> rfl

theorem hostTurn_exit (hsup : s.supports s.gpr[(4 : Gpr)] = true)
    (hexit : s.gpr[(4 : Gpr)] = s.emb.exitNr) :
    hostTurn word s = .next { s.shiftDown with status := .exited s.gpr[(5 : Gpr)] } := by
  have hstatus : s.shiftDown.gpr[(4 : Gpr)] = s.gpr[(5 : Gpr)] := s.shiftDown_gpr_arg 4 (by decide)
  rw [hostTurn_performed hsup, if_pos hexit, hstatus]

theorem hostTurn_answered (hsup : s.supports s.gpr[(4 : Gpr)] = true)
    (hexit : s.gpr[(4 : Gpr)] ≠ s.emb.exitNr) :
    hostTurn word s = .next (s.shiftDown.takeReply.2.answered word s.shiftDown.takeReply.1) :=
  (hostTurn_performed hsup).trans (if_neg hexit)

theorem State.takeReply_queued (h : s.hostReplies = reply :: rest) :
    s.takeReply = (reply, { s with hostReplies := rest }) := by
  rw [State.takeReply, h]

/-- With no answer queued it is a free one (log 14). -/
theorem State.takeReply_free (h : s.hostReplies = []) :
    s.takeReply = (Config.hostReply s.draws, s.withDraws (s.draws + 1)) := by
  unfold State.takeReply
  split
  case h_1 => rfl
  case h_2 hqueue => cases h.symm.trans hqueue

/-- The host's turn with an answer queued. -/
theorem hostTurn_queued (hsup : s.supports s.gpr[(4 : Gpr)] = true)
    (hexit : s.gpr[(4 : Gpr)] ≠ s.emb.exitNr) (h : s.hostReplies = reply :: rest) :
    hostTurn word s = .next (({ s.shiftDown with hostReplies := rest } : State).answered word reply) := by
  rw [hostTurn_answered hsup hexit, State.takeReply_queued (s := s.shiftDown) h]

/-! ### The free answer (log 14) -/

theorem State.hostWrites_withDraws {d : Nat} {writes : List (Word × Byte)} :
    (s.withDraws d).hostWrites writes = (s.hostWrites writes).withDraws d := by
  induction writes generalizing s with
  | nil => rfl
  | cons c writes ih =>
    refine Eq.trans ?_ ih
    exact congrArg (State.hostWrites · writes) (ite_eq_map rfl rfl)

theorem State.answered_withDraws {d : Nat} :
    (s.withDraws d).answered word reply = (s.answered word reply).withDraws d := by
  cases reply with
  | returns | fatal => rw [State.answered, State.hostWrites_withDraws]; rfl

/-- A free answer does what that answer does from the queue, and counts as a draw. -/
theorem hostTurn_free (hsup : s.supports s.gpr[(4 : Gpr)] = true)
    (hexit : s.gpr[(4 : Gpr)] ≠ s.emb.exitNr) (h : s.hostReplies = []) :
    hostTurn word s = mapNext (.withDraws (s.draws + 1))
      (hostTurn word { s with hostReplies := [Config.hostReply s.draws] }) := by
  have hqueued := hostTurn_queued (word := word) (s := { s with hostReplies := [Config.hostReply s.draws] })
    hsup hexit rfl
  have hback : ({ ({ s with hostReplies := [Config.hostReply s.draws] } : State).shiftDown with
      hostReplies := [] } : State) = s.shiftDown := by
    rw [← h]
    rfl
  rw [hostTurn_answered hsup hexit, State.takeReply_free (s := s.shiftDown) h, State.answered_withDraws,
    hqueued, hback]
  rfl

/-! ### The bytes of an answer (R513; log 17) -/

/-- The host's writes depend on memory and on what the port admits alone. -/
theorem hostWrote_hostWrites {u : State} {writes : List (Word × Byte)}
    (ht : t.mem = (u.hostWrites writes).mem) (hmem : u.mem = s.mem) (hemb : u.emb = s.emb) :
    HostWrote s t writes := by
  have hadmits (a : Word) : u.admits a = s.admits a := by rw [State.admits, hemb, State.admits]
  have hold (a : Word) : u.byteAt a = s.byteAt a := by rw [State.byteAt, hmem, State.byteAt]
  have hnew (a : Word) : t.byteAt a = (u.hostWrites writes).byteAt a := by
    rw [State.byteAt, ht, State.byteAt]
  constructor
  case kept =>
    intro a ha
    rw [hnew, State.byteAt_hostWrites_ne u writes a (by rwa [hadmits]), hold]
  case written =>
    rintro hm before after a v rfl ha hadm
    rw [hnew]
    exact State.byteAt_hostWrites u before after a v (hmem ▸ hm) ((hadmits a).trans hadm) ha

theorem State.answered_returns {r : Word} {writes : List (Word × Byte)} :
    s.answered word (.returns r writes) =
      { s.hostReturn r (errorFlag r) with
        mem := (s.hostWrites writes).mem, control := .resume word } := by
  rw [State.answered, State.hostWrites_eq]
  rfl

theorem State.answered_fatal {writes : List (Word × Byte)} :
    s.answered word (.fatal writes) =
      { s with mem := (s.hostWrites writes).mem, status := .halted .hostFatal s.pc (some word) } := by
  rw [State.answered, State.hostWrites_eq]
  rfl

/-- The arguments after the shift-down (R507), and every other register. -/
theorem State.gpr_of_shiftDown :
    s.shiftDown.gpr[(4 : Gpr)] = s.gpr[(5 : Gpr)] ∧ s.shiftDown.gpr[(5 : Gpr)] = s.gpr[(6 : Gpr)] ∧
      s.shiftDown.gpr[(6 : Gpr)] = s.gpr[(7 : Gpr)] ∧ s.shiftDown.gpr[(7 : Gpr)] = s.gpr[(8 : Gpr)] ∧
      s.shiftDown.gpr[(8 : Gpr)] = s.gpr[(9 : Gpr)] ∧
      ∀ q : Gpr, q ∉ ([4, 5, 6, 7, 8] : List Gpr) → s.shiftDown.gpr[q] = s.gpr[q] :=
  ⟨s.shiftDown_gpr_arg 4 (by decide), s.shiftDown_gpr_arg 5 (by decide), s.shiftDown_gpr_arg 6 (by decide),
    s.shiftDown_gpr_arg 7 (by decide), s.shiftDown_gpr_arg 8 (by decide), s.shiftDown_gpr_ne⟩

end

/-- Settles O36: the answer writes bytes and the two results over the shift-down. -/
theorem supportedCall : Obligations.SupportedCall := by
  intro s word r writes rest hrun hhost htable hfstat hexit
  have hsup := (s.supports_eq_true_iff _).2 ⟨htable, hfstat⟩
  refine ⟨fun hqueue => ?_, fun hqueue => ⟨Config.hostReply s.draws, s.draws + 1, ?_⟩⟩
  · have hturn := (step_host s word hrun hhost).trans (hostTurn_queued hsup hexit hqueue)
    rw [State.answered_returns] at hturn
    obtain ⟨h2, h7, h4, h5, h6, h8, hother⟩ := s.gpr_of_returned r (errorFlag r) _ rfl
    exact ⟨_, hturn, rfl, h2, h7, h4, h5, h6, h8, hother, hostWrote_hostWrites rfl rfl rfl⟩
  · rw [step_host s word hrun hhost,
      step_host { s with hostReplies := [Config.hostReply s.draws] } word hrun hhost]
    exact hostTurn_free hsup hexit hqueue

/-- Settles O37: after the shift-down the exit call sets the run status alone, and a fatal answer writes its
bytes as well. -/
theorem callEndsRun : Obligations.CallEndsRun := by
  intro s word hrun hhost htable hfstat writes rest hends
  have hsup := (s.supports_eq_true_iff _).2 ⟨htable, hfstat⟩
  obtain ⟨h4, h5, h6, h7, h8, hother⟩ := s.gpr_of_shiftDown
  by_cases hexit : s.gpr[(4 : Gpr)] = s.emb.exitNr
  · have hturn := (step_host s word hrun hhost).trans (hostTurn_exit hsup hexit)
    exact ⟨_, hturn, h4, h5, h6, h7, h8, hother, fun _ => ⟨rfl, rfl, rfl⟩, fun h => absurd hexit h⟩
  · have hqueue := hends.resolve_left hexit
    have hturn := (step_host s word hrun hhost).trans (hostTurn_queued hsup hexit hqueue)
    rw [State.answered_fatal] at hturn
    exact ⟨_, hturn, h4, h5, h6, h7, h8, hother, fun h => absurd h hexit, fun _ =>
      ⟨rfl, rfl, hostWrote_hostWrites rfl rfl rfl, Config.fatalExitStatus, Nat.succ_ne_zero _, rfl⟩⟩

end Sys2Proof.Machine
end

section
/-! The process bootstrap and its loader (70_reset_and_hazards.md R534 to R538): what the string table and the
stack image leave in memory, the layouts a loader keeps, and O60. -/

namespace Sys2Proof.Machine

/-! ### Bytes and words in memory -/

theorem Memory.read_writeBytes_at {m : Memory} {a : Word} {l : List Byte} {k : Nat} {v : Byte} (hm : m.wf)
    (hl : l.length ≤ 2 ^ 32) (hv : l[k]? = some v) :
    (m.writeBytes a l).read (a + BitVec.ofNat 32 k).toNat = v := by
  obtain ⟨hk, hv⟩ := List.getElem?_eq_some_iff.1 hv
  have hoff := toNat_add_ofNat_sub (hk.trans_le hl) a
  rw [Memory.read_writeBytes m a _ l hm hl]
  simp only [hoff, hk, dite_true, hv]

theorem length_flatMap_bytesOfWord (ws : List Word) : (ws.flatMap bytesOfWord).length = 4 * ws.length := by
  simp [List.length_flatMap, bytesOfWord_length, Nat.mul_comm]

/-- The words of a list stand in memory one after the other. -/
theorem getElem?_flatMap_bytesOfWord {ws : List Word} {j k : Nat} {w : Word} (hj : ws[j]? = some w)
    (hk : k < 4) : (ws.flatMap bytesOfWord)[4 * j + k]? = some (byteOf w k) := by
  induction ws generalizing j with
  | nil => simp at hj
  | cons w' ws ih =>
    rw [List.flatMap_cons]
    cases j with
    | zero =>
      obtain rfl : w' = w := by simpa using hj
      have hk4 : 4 * 0 + k < (bytesOfWord w').length := by simpa [bytesOfWord_length] using hk
      rw [List.getElem?_append_left hk4, List.getElem?_eq_getElem hk4, getElem_bytesOfWord,
        Nat.mul_zero, Nat.zero_add]
    | succ j =>
      have hle : (bytesOfWord w').length ≤ 4 * (j + 1) + k := by rw [bytesOfWord_length]; omega
      have hsub : 4 * (j + 1) + k - (bytesOfWord w').length = 4 * j + k := by
        rw [bytesOfWord_length]
        omega
      rw [List.getElem?_append_right hle, hsub]
      exact ih (by simpa using hj)

theorem State.wordOf_of_writeBytes {t : State} {m : Memory} {a : Word} {ws : List Word} {j : Nat} {w : Word}
    (ht : t.mem = m.writeBytes a (ws.flatMap bytesOfWord)) (hm : m.wf) (hl : 4 * ws.length ≤ 2 ^ 32)
    (hj : ws[j]? = some w) : t.wordOf (a + BitVec.ofNat 32 (4 * j)) = w := by
  refine State.wordOf_eq_iff.2 fun k hk => ?_
  rw [add_ofNat_add_ofNat, State.byteAt, ht]
  exact Memory.read_writeBytes_at hm ((length_flatMap_bytesOfWord ws).trans_le hl)
    (getElem?_flatMap_bytesOfWord hj hk)

/-! ### The images of a process (R534, R535) -/

section

variable {f : BootFrame} {argv : List (List Byte)} {k : Nat}

theorem length_stringAddrs (a : Word) : (stringAddrs a argv).length = argv.length := by
  induction argv generalizing a with
  | nil => rfl
  | cons str argv ih => simp [stringAddrs, ih]

/-- A string stands after those before it in the table. -/
theorem getElem?_stringAddrs {a : Word} (hk : k < argv.length) :
    (stringAddrs a argv)[k]? = some (a + BitVec.ofNat 32 (stringTable (argv.take k)).length) := by
  induction argv generalizing a k with
  | nil => cases hk
  | cons str argv ih =>
    cases k with
    | zero => simp [stringAddrs, stringTable]
    | succ k =>
      refine (ih (Nat.lt_of_succ_lt_succ hk)).trans ?_
      have hlength : (stringTable ((str :: argv).take (k + 1))).length =
          str.length + 1 + (stringTable (argv.take k)).length := by
        simp [stringTable, Nat.add_assoc, Nat.add_comm 1]
      rw [add_ofNat_add_ofNat, hlength]

theorem length_stackImage : (stackImage f argv).length = 7 + argv.length := by
  simp only [stackImage, List.length_append, List.length_cons, List.length_nil, length_stringAddrs]
  omega

theorem stackImage_count : (stackImage f argv)[0]? = some (BitVec.ofNat 32 argv.length) := rfl

theorem stackImage_address (hk : k < argv.length) : (stackImage f argv)[k + 1]? =
    some (f.strtab + BitVec.ofNat 32 (stringTable (argv.take k)).length) := by
  have hlen : k < (stringAddrs f.strtab argv).length := by rwa [length_stringAddrs]
  exact (List.getElem?_append_left hlen).trans (getElem?_stringAddrs hk)

theorem stackImage_vector (hk : k < 6) : (stackImage f argv)[argv.length + k + 1]? =
    some [0#32, 0#32, 6#32, f.pageSize, 0#32, 0#32][k] := by
  have hle : (stringAddrs f.strtab argv).length ≤ argv.length + k := by
    rw [length_stringAddrs]
    omega
  refine (List.getElem?_append_right hle).trans ?_
  rw [length_stringAddrs, Nat.add_sub_cancel_left]
  exact List.getElem?_eq_getElem hk

theorem tableImage_string (hlen : (stringTable argv).length ≤ 512) (hk : k < (stringTable argv).length) :
    (tableImage f argv)[k]? = some (stringTable argv)[k] := by
  rw [tableImage, List.getElem?_take_of_lt (by omega), List.getElem?_append_left hk,
    List.getElem?_eq_getElem hk]

theorem tableImage_fill (hk : k < f.fill.length) (hlen : (stringTable argv).length + k < 512) :
    (tableImage f argv)[(stringTable argv).length + k]? = some f.fill[k] := by
  rw [tableImage, List.getElem?_take_of_lt hlen, List.getElem?_append_right (Nat.le_add_right _ k),
    Nat.add_sub_cancel_left, List.getElem?_eq_getElem hk]

theorem length_tableImage : (tableImage f argv).length ≤ 512 := List.length_take_le 512 _

theorem BootFrame.fits_iff {ramTop argc : Nat} : f.fits ramTop argc = true ↔
    f.strtab.toNat + 512 ≤ ramTop ∧ f.sp.toNat + 28 + 4 * argc ≤ f.strtab.toNat ∧
      f.sp.toNat % 8 = 0 := by
  simp only [BootFrame.fits, Bool.and_eq_true, decide_eq_true_eq, and_assoc]

end

/-! ### The bootstrap -/

section

variable {s : State} {f : BootFrame} {argv : List (List Byte)} {ramTop : Nat}

/-- More than 512 bytes of strings (R538; log 24). -/
theorem State.bootstrap_overflow (h : 512 < (stringTable argv).length) :
    s.bootstrap f argv = s.halt .hostFatal none :=
  if_pos h

/-- The memory after the string table, before the stack image. -/
def State.memWithTable (s : State) (f : BootFrame) (argv : List (List Byte)) : Memory :=
  s.mem.writeBytes f.strtab (tableImage f argv)

/-- What a bootstrap that succeeds writes: memory and three registers. -/
theorem State.bootstrap_eq (h : (stringTable argv).length ≤ 512) :
    s.bootstrap f argv =
      { s with
        gpr := ((s.gpr.set (29 : Gpr) f.sp).set (4 : Gpr) (BitVec.ofNat 32 argv.length)).set (5 : Gpr)
          (f.sp + 4#32)
        mem := (s.memWithTable f argv).writeBytes f.sp ((stackImage f argv).flatMap bytesOfWord) } :=
  if_neg (Nat.not_lt.2 h)

theorem State.bootstrap_mem (h : (stringTable argv).length ≤ 512) :
    (s.bootstrap f argv).mem =
      (s.memWithTable f argv).writeBytes f.sp ((stackImage f argv).flatMap bytesOfWord) :=
  congrArg State.mem (State.bootstrap_eq h)

/-- The stack image ends below 2^32. -/
theorem length_image_le (hfits : f.fits ramTop argv.length = true) (htop : ramTop ≤ 2 ^ 32) :
    4 * (stackImage f argv).length ≤ 2 ^ 32 := by
  obtain ⟨htable, himage, -⟩ := BootFrame.fits_iff.1 hfits
  rw [length_stackImage]
  omega

/-- A byte of the table is outside the stack image. -/
theorem table_ne_image (hfits : f.fits ramTop argv.length = true) (htop : ramTop ≤ 2 ^ 32) {k : Nat}
    (hk : k < 512) : ∀ j < ((stackImage f argv).flatMap bytesOfWord).length,
      f.strtab + BitVec.ofNat 32 k ≠ f.sp + BitVec.ofNat 32 j := by
  obtain ⟨htable, himage, -⟩ := BootFrame.fits_iff.1 hfits
  intro j hj heq
  rw [length_flatMap_bytesOfWord, length_stackImage] at hj
  have htoNat := congrArg BitVec.toNat heq
  rw [toNat_add_ofNat_of_lt (by omega), toNat_add_ofNat_of_lt (by omega)] at htoNat
  omega

theorem State.bootstrap_table (hm : s.mem.wf) (hfits : f.fits ramTop argv.length = true)
    (htop : ramTop ≤ 2 ^ 32) (hlen : (stringTable argv).length ≤ 512) {k : Nat} {v : Byte}
    (hv : (tableImage f argv)[k]? = some v) :
    (s.bootstrap f argv).byteAt (f.strtab + BitVec.ofNat 32 k) = v := by
  obtain ⟨hk, -⟩ := List.getElem?_eq_some_iff.1 hv
  have himage := table_ne_image hfits htop (hk.trans_le length_tableImage)
  rw [State.byteAt, State.bootstrap_mem hlen, Memory.read_writeBytes_of_ne himage]
  exact Memory.read_writeBytes_at hm (length_tableImage.trans (by decide)) hv

theorem State.bootstrap_image (hm : s.mem.wf) (hfits : f.fits ramTop argv.length = true)
    (htop : ramTop ≤ 2 ^ 32) (hlen : (stringTable argv).length ≤ 512) {j : Nat} {w : Word}
    (hj : (stackImage f argv)[j]? = some w) :
    (s.bootstrap f argv).wordOf (f.sp + BitVec.ofNat 32 (4 * j)) = w :=
  State.wordOf_of_writeBytes (State.bootstrap_mem hlen) (Memory.writeBytes_wf _ _ _ hm)
    (length_image_le hfits htop) hj

theorem State.bootstrap_outside (hlen : (stringTable argv).length ≤ 512) {a : Word}
    (htable : ∀ k < 512, a ≠ f.strtab + BitVec.ofNat 32 k)
    (himage : ∀ k < 28 + 4 * argv.length, a ≠ f.sp + BitVec.ofNat 32 k) :
    (s.bootstrap f argv).byteAt a = s.byteAt a := by
  have hlength : ((stackImage f argv).flatMap bytesOfWord).length = 28 + 4 * argv.length := by
    rw [length_flatMap_bytesOfWord, length_stackImage]
    omega
  rw [State.byteAt, State.bootstrap_mem hlen, Memory.read_writeBytes_of_ne (hlength ▸ himage),
    State.memWithTable,
    Memory.read_writeBytes_of_ne fun k hk => htable k (hk.trans_le length_tableImage)]
  rfl

/-- The three registers of a process (R536), and the others. -/
theorem State.bootstrap_gpr (hlen : (stringTable argv).length ≤ 512) :
    (s.bootstrap f argv).gpr[(29 : Gpr)] = f.sp ∧
      (s.bootstrap f argv).gpr[(4 : Gpr)] = BitVec.ofNat 32 argv.length ∧
      (s.bootstrap f argv).gpr[(5 : Gpr)] = f.sp + 4#32 ∧
      ∀ r : Gpr, r ∉ ([29, 4, 5] : List Gpr) → (s.bootstrap f argv).gpr[r] = s.gpr[r] := by
  rw [State.bootstrap_eq hlen]
  refine ⟨?_, ?_, ?_, fun r hr => ?_⟩
  · simp
  · simp
  · simp
  · simp only [List.mem_cons, List.not_mem_nil, or_false, not_or] at hr
    obtain ⟨h29, h4, h5⟩ := hr
    rw [gpr_set_ne _ _ _ _ h5, gpr_set_ne _ _ _ _ h4, gpr_set_ne _ _ _ _ h29]

end

/-! ### The loader (R537) -/

/-- Processes apart hold no common address. -/
theorem LaidFrame.not_holds_of_apart {p q : LaidFrame} (h : p.apart q = true) (a : Nat) :
    ¬ (p.Holds a ∧ q.Holds a) := by
  simp only [LaidFrame.apart, Bool.and_eq_true] at h
  obtain ⟨⟨⟨htt, hti⟩, hit⟩, hii⟩ := h
  rintro ⟨hp | hp, hq | hq⟩
  · exact Region.not_contains_of_apart _ _ a htt ⟨hp, hq⟩
  · exact Region.not_contains_of_apart _ _ a hti ⟨hp, hq⟩
  · exact Region.not_contains_of_apart _ _ a hit ⟨hp, hq⟩
  · exact Region.not_contains_of_apart _ _ a hii ⟨hp, hq⟩

theorem Loader.start_ok (ramTop : Nat) : Loader.start.Ok ramTop where
  fits := nofun
  pair := .nil

/-- The latest of the processes laid out has the lowest table, so a table below that one is below all. -/
theorem Loader.Ok.strtab_lt {ramTop : Nat} {l : Loader} (hl : l.Ok ramTop) {p : LaidFrame}
    (hhead : (l.laid.head?.all fun q => decide (p.frame.strtab.toNat < q.frame.strtab.toNat)) = true) :
    ∀ q ∈ l.laid, p.frame.strtab.toNat < q.frame.strtab.toNat := by
  obtain ⟨laid⟩ := l
  cases laid with
  | nil => nofun
  | cons latest laid =>
    have hlatest : p.frame.strtab.toNat < latest.frame.strtab.toNat := of_decide_eq_true hhead
    intro q hq
    obtain rfl | hq := List.mem_cons.1 hq
    · exact hlatest
    · exact hlatest.trans (List.rel_of_pairwise_cons hl.pair hq).2

/-- A process that may follow keeps the constraints of a layout. -/
theorem Loader.Ok.cons {ramTop : Nat} {l : Loader} (hl : l.Ok ramTop) {p : LaidFrame}
    (h : p.follows ramTop l.laid = true) : (⟨p :: l.laid⟩ : Loader).Ok ramTop := by
  simp only [LaidFrame.follows, Bool.and_eq_true] at h
  obtain ⟨⟨hfits, hapart⟩, hhead⟩ := h
  constructor
  case fits => exact List.forall_mem_cons.2 ⟨hfits, hl.fits⟩
  case pair =>
    exact List.pairwise_cons.2 ⟨fun q hq =>
      ⟨LaidFrame.not_holds_of_apart (List.all_eq_true.1 hapart q hq), hl.strtab_lt hhead q hq⟩, hl.pair⟩

/-- Settles O60: the table lies above the stack image, so each keeps its bytes, and the loader lays out only
a process that may follow. -/
theorem bootstrap : Obligations.Bootstrap := by
  refine ⟨fun s f argv ramTop hm hfits htop => ⟨State.bootstrap_overflow, fun hlen => ?_⟩, rfl,
    Loader.start_ok, fun l l' layout ramTop s t argv hl h => ?_⟩
  · obtain ⟨h29, h4, h5, hother⟩ := State.bootstrap_gpr (s := s) (f := f) hlen
    refine ⟨h29, h4, h5, hother, ?_, fun k hk => ?_, fun k hk hfill => ?_, ?_, fun k hk => ?_,
      fun k hk => ?_, fun a => State.bootstrap_outside hlen⟩
    · rw [State.bootstrap_eq hlen]
    · exact State.bootstrap_table hm hfits htop hlen (tableImage_string hlen hk)
    · exact State.bootstrap_table hm hfits htop hlen (tableImage_fill hk hfill)
    · simpa using State.bootstrap_image hm hfits htop hlen stackImage_count
    · rw [show 4 + 4 * k = 4 * (k + 1) by ring]
      exact State.bootstrap_image hm hfits htop hlen (stackImage_address hk)
    · rw [show 4 + 4 * argv.length + 4 * k = 4 * (argv.length + k + 1) by ring]
      exact State.bootstrap_image hm hfits htop hlen (stackImage_vector hk)
  · obtain ⟨hfollows, hr⟩ := (Loader.bootstrap_eq_some l layout ramTop s argv (l', t)).1 h
    obtain ⟨rfl, rfl⟩ := Prod.mk.inj hr
    exact ⟨rfl, rfl, hl.cons hfollows⟩

end Sys2Proof.Machine
end
